-- ==== Sys2Proof/Word.lean ====
section
/-! DEFINITION. The block's words: the bit vector, the register number and the 16-bit command word. -/

namespace Sys2Proof

/-- A bit vector (rule R10): a finite list of Booleans, index 0 the MOST significant bit. Its length is
the list's length, so `length == size(bits)` holds by construction. No sign, no tag (rule R11). -/
abbrev Bits := List Bool

/-- A vector register's number, `V0` to `V15` (rules R5, R13, R31): every number names a register. -/
abbrev RegId := Fin 16

/-- The command word (rule R40), bits numbered by weight: bit 15 is the most significant (rule R41). -/
abbrev CmdWord := BitVec 16

end Sys2Proof
end

