-- ==== Sys2Proof/Syntax.lean ====
section
/-! DEFINITION. The thirteen commands (rules R43, R50), one constructor per row of
spec/opcode_table.json. A model makes the decoded command its primary object (30_encoding.md). -/

namespace Sys2Proof

/-- A command. `rd` is the destination, `ra` the left operand (P1DOC's receiver), `rb` the right operand
(rule R44); the order of the arguments is that of the assembler line (rule R48). -/
inductive Instr where
  /-- `LDV rd`: load the vector offered on `DIN` (rule R65). -/
  | ldv (rd : RegId)
  /-- `STV ra`: store to the data-out latch (rule R66). -/
  | stv (ra : RegId)
  /-- `MOV rd, ra`: clone (rule R67). -/
  | mov (rd ra : RegId)
  /-- `PAD rd, #n`: pad in place with `n` leading zeros (rule R72); `n` is at most 255 in a well-formed
  command (rule R42, U22; log 3). -/
  | pad (rd : RegId) (n : Nat)
  /-- `AND rd, ra, rb` (rule R76). -/
  | and (rd ra rb : RegId)
  /-- `OR rd, ra, rb` (rule R77). -/
  | or (rd ra rb : RegId)
  /-- `XOR rd, ra, rb` (rule R78). -/
  | xor (rd ra rb : RegId)
  /-- `ADD rd, ra, rb`: the final carry kept (rule R86). -/
  | add (rd ra rb : RegId)
  /-- `ADDNC rd, ra, rb`: the final carry discarded (rule R87). -/
  | addnc (rd ra rb : RegId)
  /-- `NEG rd, ra`: two's-complement negation (rule R96). -/
  | neg (rd ra : RegId)
  /-- `SUB rd, ra, rb`: floor at zero (rule R102). -/
  | sub (rd ra rb : RegId)
  /-- `MUL rd, ra, rb`: Booth multiplication (rule R116). -/
  | mul (rd ra rb : RegId)
  /-- `ASR rd, ra`: arithmetic shift right by one (rule R117). -/
  | asr (rd ra : RegId)
deriving DecidableEq, Repr

end Sys2Proof
end

