-- ==== Sys2Proof/WellFormed.lean ====
section
/-! DEFINITION. When a command can be written as a word, and when a word is a command: the opcode map of
rule R43 as a table of match and mask. -/

namespace Sys2Proof

/-- A command is well formed when it has an encoding. The register fields are numbers below 16 by their
type; the only check is that `PAD`'s count fits its 8-bit immediate (rule R42, U22). -/
def Instr.wellFormed : Instr → Bool
  | .pad _ n => decide (n ≤ 255)
  | .ldv _ | .stv _ | .mov _ _ | .neg _ _ | .asr _ _ => true
  | .and _ _ _ | .or _ _ _ | .xor _ _ _ | .add _ _ _ | .addnc _ _ _ | .sub _ _ _ | .mul _ _ _ => true

/-- A row of the opcode map: a word `w` is the command of the row when `w and mask == match`. -/
structure OpcodeRow where
  /-- The row's mnemonic. -/
  mnemonic : String
  /-- The row's `match` column. -/
  pattern : CmdWord
  /-- The row's `mask` column. -/
  mask : CmdWord
deriving DecidableEq, Repr

/-- The opcode map of rule R43, row by row. -/
def opcodeMap : List OpcodeRow :=
  [⟨"LDV", 0x1000, 0xF0FF⟩, ⟨"STV", 0x2000, 0xFF0F⟩, ⟨"MOV", 0x3000, 0xF00F⟩, ⟨"PAD", 0x4000, 0xF000⟩,
   ⟨"AND", 0x5000, 0xF000⟩, ⟨"OR", 0x6000, 0xF000⟩, ⟨"XOR", 0x7000, 0xF000⟩, ⟨"ADD", 0x8000, 0xF000⟩,
   ⟨"ADDNC", 0x9000, 0xF000⟩, ⟨"NEG", 0xA000, 0xF00F⟩, ⟨"SUB", 0xB000, 0xF000⟩, ⟨"MUL", 0xC000, 0xF000⟩,
   ⟨"ASR", 0xD000, 0xF00F⟩]

/-- The word is the command of the row (rule R43). -/
def OpcodeRow.admits (row : OpcodeRow) (w : CmdWord) : Bool := w &&& row.mask == row.pattern

/-- A word is a command when some row of the opcode map admits it; every other word is illegal
(rule R46). The decoder is written apart from this table; that the two agree is a statement. -/
def wordLegal (w : CmdWord) : Bool := opcodeMap.any (·.admits w)

/-- The row of rule R43's table a command stands in. -/
def Instr.row : Instr → OpcodeRow
  | .ldv _ => ⟨"LDV", 0x1000, 0xF0FF⟩
  | .stv _ => ⟨"STV", 0x2000, 0xFF0F⟩
  | .mov _ _ => ⟨"MOV", 0x3000, 0xF00F⟩
  | .pad _ _ => ⟨"PAD", 0x4000, 0xF000⟩
  | .and _ _ _ => ⟨"AND", 0x5000, 0xF000⟩
  | .or _ _ _ => ⟨"OR", 0x6000, 0xF000⟩
  | .xor _ _ _ => ⟨"XOR", 0x7000, 0xF000⟩
  | .add _ _ _ => ⟨"ADD", 0x8000, 0xF000⟩
  | .addnc _ _ _ => ⟨"ADDNC", 0x9000, 0xF000⟩
  | .neg _ _ => ⟨"NEG", 0xA000, 0xF00F⟩
  | .sub _ _ _ => ⟨"SUB", 0xB000, 0xF000⟩
  | .mul _ _ _ => ⟨"MUL", 0xC000, 0xF000⟩
  | .asr _ _ => ⟨"ASR", 0xD000, 0xF00F⟩

end Sys2Proof
end

