-- ==== Sys2Proof/Decode.lean ====
section
/-! DEFINITION. From the 16-bit command word to the command and back (rules R40, R41, R43, R46). -/

namespace Sys2Proof

/-- Why a word is illegal (rule R46). -/
inductive Illegal where
  /-- The opcode is `0x0`, `0xE` or `0xF`. -/
  | reservedOpcode
  /-- A field the format marks "must be `0000`" is not zero. -/
  | mustBeZero
deriving DecidableEq, Repr

/-- The four-bit field of the command word whose lowest bit is `lo`: `cmd[lo+3:lo]`. -/
def nibble (w : CmdWord) (lo : Nat) : BitVec 4 := w.extractLsb' lo 4

/-- The low byte `cmd[7:0]`: `PAD`'s `imm8`, a must-be-zero field of `LDV`. -/
def lowByte (w : CmdWord) : BitVec 8 := w.extractLsb' 0 8

/-- The register a four-bit field names; every value is legal (rule R41). -/
def regField (w : CmdWord) (lo : Nat) : RegId := (nibble w lo).toFin

/-- A format with must-be-zero fields: the command when they are zero, illegal otherwise. -/
def requireZero (zero : Bool) (i : Instr) : Except Illegal Instr :=
  if zero then .ok i else .error .mustBeZero

/-- Format `RR`: `op rd ra 0000`. -/
def decodeRR (make : RegId → RegId → Instr) (w : CmdWord) : Except Illegal Instr :=
  requireZero (nibble w 0 == 0) (make (regField w 8) (regField w 4))

/-- Format `RRR`: `op rd ra rb`. -/
def decodeRRR (make : RegId → RegId → RegId → Instr) (w : CmdWord) : Except Illegal Instr :=
  .ok (make (regField w 8) (regField w 4) (regField w 0))

/-- The decoder (rules R41, R43, R46), total on the 65536 words. The opcode `cmd[15:12]` alone selects
the format (rule R40). -/
def decode (w : CmdWord) : Except Illegal Instr :=
  match (nibble w 12).toNat with
  | 0x1 => requireZero (lowByte w == 0) (.ldv (regField w 8))
  | 0x2 => requireZero (nibble w 8 == 0 && nibble w 0 == 0) (.stv (regField w 4))
  | 0x3 => decodeRR .mov w
  | 0x4 => .ok (.pad (regField w 8) (lowByte w).toNat)
  | 0x5 => decodeRRR .and w
  | 0x6 => decodeRRR .or w
  | 0x7 => decodeRRR .xor w
  | 0x8 => decodeRRR .add w
  | 0x9 => decodeRRR .addnc w
  | 0xA => decodeRR .neg w
  | 0xB => decodeRRR .sub w
  | 0xC => decodeRRR .mul w
  | 0xD => decodeRR .asr w
  | _ => .error .reservedOpcode

/-- A register number as a four-bit field. -/
def regBits (r : RegId) : BitVec 4 := BitVec.ofFin r

/-- The word `op b c d` of four four-bit fields, the opcode at `cmd[15:12]`. -/
def wordOf (op b c d : BitVec 4) : CmdWord := op ++ b ++ c ++ d

/-- The encoder, written from the same tables (rules R41, R43): the word of a well-formed command. -/
def encode : Instr → CmdWord
  | .ldv rd => wordOf 0x1 (regBits rd) 0 0
  | .stv ra => wordOf 0x2 0 (regBits ra) 0
  | .mov rd ra => wordOf 0x3 (regBits rd) (regBits ra) 0
  | .pad rd n => (0x4#4 ++ regBits rd ++ BitVec.ofNat 8 n : BitVec 16)
  | .and rd ra rb => wordOf 0x5 (regBits rd) (regBits ra) (regBits rb)
  | .or rd ra rb => wordOf 0x6 (regBits rd) (regBits ra) (regBits rb)
  | .xor rd ra rb => wordOf 0x7 (regBits rd) (regBits ra) (regBits rb)
  | .add rd ra rb => wordOf 0x8 (regBits rd) (regBits ra) (regBits rb)
  | .addnc rd ra rb => wordOf 0x9 (regBits rd) (regBits ra) (regBits rb)
  | .neg rd ra => wordOf 0xA (regBits rd) (regBits ra) 0
  | .sub rd ra rb => wordOf 0xB (regBits rd) (regBits ra) (regBits rb)
  | .mul rd ra rb => wordOf 0xC (regBits rd) (regBits ra) (regBits rb)
  | .asr rd ra => wordOf 0xD (regBits rd) (regBits ra) 0

/-- The command word whose bits are `w`, of which the opcode table gives `nbits`: bit 0 is the least
significant bit, every bit above `nbits` is 0. A command is one word, so there is no byte order and no
second word (rules R40, R47). -/
def tableWord (nbits w : Nat) : CmdWord := BitVec.ofNat 16 (w % 2 ^ nbits)

/-- What the decoder reads from an opcode-table word. -/
def decodeTableWord (nbits w : Nat) : Option Instr := (decode (tableWord nbits w)).toOption

end Sys2Proof
end

