-- ==== Sys2Proof/Config.lean ====
section
/-! DEFINITION. What an implementation of the block fixes: the capacity `MAXLEN` of a vector register,
and the display marker, which the spec leaves open. -/

namespace Sys2Proof

/-- The build parameters. They are an ARGUMENT of the step (rules R4, R26): the state carries them, and
no step changes them (log 2). -/
structure Config where
  /-- `MAXLEN` in bits (rule R4): `none` is `∞`, `some k` a finite capacity of `k` bits. -/
  maxLen : Option Nat
deriving DecidableEq, Repr

/-- `MAXLEN = ∞`, "the default and the only value that conforms to P1DOC" (rule R4). -/
def Config.conformant : Config := { maxLen := none }

/-- `MARKER`, the two characters in front of a display string (rule R64, U5, D19): open, so a constant
without a body. Host-side only: no rule of the block reads it (log 12). -/
opaque Config.marker : Char × Char

end Sys2Proof
end

