-- ==== Sys2Proof/Machine/State.lean ====
section
/-! DEFINITION. The block's state as plain data, its reset value, and the reasons a step can stop. -/

namespace Sys2Proof.Machine

/-- What a vector register or the data-out latch holds (rules R13, R23): the mark *unwritten*, or one
bit vector. *Unwritten* is the spec's own state of a register, its reset value (rule R25). -/
inductive Slot where
  /-- Never written since reset. -/
  | unwritten
  /-- Holds the vector `v`. -/
  | held (v : Bits)
deriving DecidableEq, Repr

/-- The state that lives inside one command (rules R18, R19): operand latches, the adder's carry cell,
the Booth registers and their counters. Nothing observes it (log 5). -/
structure Working where
  /-- Operand latch `X`: the left or only operand (rule R15). -/
  latchX : Bits
  /-- Operand latch `Y`: the right operand (rule R15). -/
  latchY : Bits
  /-- `c`, the carry cell of a ripple pass. -/
  carry : Bool
  /-- `n`, P1DOC's `numCycles`: the equalised operand width of a `MUL`. -/
  n : Nat
  /-- `cyc`, the Booth cycles done. -/
  cyc : Nat
  /-- `A`, the multiplicand. -/
  regA : Bits
  /-- `S`, the negated multiplicand. -/
  regS : Bits
  /-- `P`, the product register; its upper part is the accumulator. -/
  regP : Bits
deriving DecidableEq, Repr

/-- The working state at reset, where the spec says "unspecified" (rule R25): empty and zero,
DESIGN CHOICE (log 5). -/
def Working.cleared : Working :=
  { latchX := [], latchY := [], carry := false, n := 0, cyc := 0, regA := [], regS := [], regP := [] }

/-- What the host drives on the command port and the data-in port (rules R20, R21). -/
structure Port where
  /-- `cmd`, the command word. -/
  cmd : CmdWord
  /-- `DIN`, a finite bit sequence, most-significant bit first. -/
  din : Bits
deriving DecidableEq, Repr

/-- What the host does to the block (rule R155), in the order it does it (rule R36). Reading the
latches is not listed: it changes nothing (rule R23). -/
inductive HostEvent where
  /-- Present a command word, with the `DIN` value beside it. -/
  | command (cmd : CmdWord) (din : Bits)
  /-- Apply reset (rule R150). -/
  | reset
deriving DecidableEq, Repr

/-- The four faults of rule R130, and no others (U18). The spec describes their entry (rule R135), so a
command that raises one TAKES it, a next state (NOTES.md, Faults): no step answers `Host.Outcome.fault`. -/
inductive Fault where
  /-- Code 1, raised by any illegal word (rule R131). Safe: the entry is the spec's. -/
  | illegalCommand
  /-- Code 2, raised by every command but `LDV` that reads an *unwritten* register (rule R132). Safe. -/
  | unwrittenRegister
  /-- Code 3, raised by `LDV` of an empty vector or one beyond a finite `MAXLEN` (rule R134). Safe. -/
  | badLength
  /-- Code 4, raised by `PAD`, `ADD`, `MUL` whose result exceeds a finite `MAXLEN` (rule R133). Safe. -/
  | lengthOverflow
deriving DecidableEq, Repr

/-- Why a step has no transition. -/
inductive Refusal where
  /-- An arm of `exec` that has no meaning yet; no arm is left (safe). -/
  | notModelled (mnemonic : String)
  /-- A command presented while `BUSY = 1`: the spec gives no transition (rule R158, U20). Raised by
  the command port alone, in states no run reaches, since commands are atomic (rule R22). Safe
  (log 8). -/
  | commandWhileBusy
deriving DecidableEq, Repr

/-- The block. The first six fields are the spec's state, `work` is its hidden state; `cfg`, `port` and
`inputs` are parameters and inputs (rule R26) which the step, having one argument, finds here (logs 1
and 2). -/
structure State where
  /-- `V0 ... V15` (rule R13). -/
  regs : Vector Slot 16
  /-- `DOUT`, the data-out latch (rule R23). -/
  dout : Slot
  /-- `BUSY` (rule R24). -/
  busy : Bool
  /-- `HALTED` (rule R24). -/
  halted : Bool
  /-- `FAULT`, the code of the fault taken, 0 = none (rules R24, R130). -/
  fault : BitVec 3
  /-- `FINFO`, the command word that faulted (rules R24, R130). -/
  finfo : CmdWord
  /-- The state inside a command (rules R18, R19). -/
  work : Working
  /-- The build parameters: `MAXLEN` (rules R4, R26). -/
  cfg : Config
  /-- The command being executed and its `DIN` (rules R20, R21). -/
  port : Port
  /-- What the host will do next, first first (rules R26, R36, R153). -/
  inputs : List HostEvent
deriving DecidableEq, Repr

/-- The state after reset (rules R25, R150), with nothing presented yet and `MAXLEN = ∞`, the default
(rule R4). -/
def State.reset : State :=
  { regs := Vector.replicate 16 .unwritten
    dout := .unwritten
    busy := false
    halted := false
    fault := 0
    finfo := 0
    work := Working.cleared
    cfg := Config.conformant
    port := { cmd := 0, din := [] }
    inputs := [] }

end Sys2Proof.Machine
end

