-- ==== Sys2Proof/Machine/Ops.lean ====
section
/-! DEFINITION. The named operations on the state: reading and writing a vector register, the latches,
completing a command, taking a fault, reset. -/

namespace Sys2Proof.Machine

/-- What a meaning answers. -/
abbrev Result := Host.Outcome State Fault Refusal

/-- Read of vector register `r` (rule R13): the whole register, no side effect (rule R35). -/
def State.reg (s : State) (r : RegId) : Slot := s.regs[r]

/-- Write of the whole register `r` (rules R13, R35): bits and length together; no other changes. -/
def State.setReg (s : State) (r : RegId) (v : Bits) : State := { s with regs := s.regs.set r (.held v) }

/-- Write of the data-out latch (rules R23, R66). -/
def State.setDout (s : State) (v : Bits) : State := { s with dout := .held v }

/-- Write of the state inside a command (rules R18, R19). -/
def State.setWork (s : State) (w : Working) : State := { s with work := w }

/-- `BUSY` is cleared at completion (rule R24). -/
def State.finish (s : State) : State := { s with busy := false }

/-- The operand latch `X` takes the only operand (rules R15, R19). -/
def Working.latchOne (w : Working) (v : Bits) : Working := { w with latchX := v }

/-- The operand latches take both operands (rules R15, R19). -/
def Working.latch (w : Working) (a b : Bits) : Working := { w with latchX := a, latchY := b }

/-- The carry cell after a ripple pass (rule R19). -/
def Working.setCarry (w : Working) (c : Bool) : Working := { w with carry := c }

/-- A vector of `n` bits fits a register: `n ≤ MAXLEN` (rules R4, R13). -/
def fits (c : Config) (n : Nat) : Bool :=
  match c.maxLen with
  | none => true
  | some k => decide (n ≤ k)

/-- A command that writes a vector register completes (rules R14, R22): `rd` takes the result, the
working state is what the command left, `BUSY` is cleared; nothing else changes. -/
def writeback (rd : RegId) (v : Bits) (w : Working) (s : State) : Result :=
  .next ((s.setReg rd v).setWork w).finish

/-- A command that writes the data-out latch completes (rules R22, R66). -/
def outputVector (v : Bits) (w : Working) (s : State) : Result :=
  .next ((s.setDout v).setWork w).finish

/-- The code latched in `FAULT` (rule R130). -/
def faultCode : Fault → BitVec 3
  | .illegalCommand => 1
  | .unwrittenRegister => 2
  | .badLength => 3
  | .lengthOverflow => 4

/-- The state after taking a fault (rule R135): `FAULT ← code`, `FINFO ← cmd`, `HALTED ← 1`,
`BUSY ← 0`; no register and no `DOUT` is written, nothing else is saved. -/
def State.faulted (f : Fault) (s : State) : State :=
  { s with fault := faultCode f, finfo := s.port.cmd, halted := true, busy := false }

/-- TAKING A FAULT (rule R135), the one entry every fault goes through: a next state. There is no
return from it (rule R140); only reset clears `HALTED`. -/
def takeFault (f : Fault) (s : State) : Result := .next (s.faulted f)

/-- Reset (rules R150, R151): every field to its reset value, whatever the block was doing. The build
parameter and what the host does afterwards are not the block's to clear (log 11). -/
def State.applyReset (rest : List HostEvent) (s : State) : State :=
  { State.reset with cfg := s.cfg, inputs := rest }

/-- Accepting a command (rules R20, R24): the port carries it and its `DIN`, `BUSY` is set. -/
def State.accept (cmd : CmdWord) (din : Bits) (rest : List HostEvent) (s : State) : State :=
  { s with port := { cmd := cmd, din := din }, busy := true, inputs := rest }

/-- A command presented while `HALTED = 1` is ignored (rules R20, R136): it is gone, and no state of
the block changes (log 4). -/
def State.ignore (rest : List HostEvent) (s : State) : State := { s with inputs := rest }

end Sys2Proof.Machine
end

