-- ==== Sys2Proof/Machine/CommandPort.lean ====
section
/-! DEFINITION. The command port and the host's view: how the block takes the host's next event, and what
the host can read. The block has no program counter and fetches nothing (rule R16). -/

namespace Sys2Proof.Machine

/-- What the command port makes of the host's next event. -/
inductive Fetched where
  /-- The step ends here with this answer. -/
  | answered (o : Result)
  /-- The accepted word is this command, to be executed in this state. -/
  | run (i : Instr) (s : State)

/-- An accepted word (rules R46, R131, R137): decoding comes first, before any source is looked at. -/
def issue (cmd : CmdWord) (s : State) : Fetched :=
  match decode cmd with
  | .ok i => .run i s
  | .error _ => .answered (takeFault .illegalCommand s)

/-- A presented command (rules R20, R136, R158): ignored while halted, without a transition while busy,
otherwise accepted. -/
def present (cmd : CmdWord) (din : Bits) (rest : List HostEvent) (s : State) : Fetched :=
  if s.halted then .answered (.next (s.ignore rest))
  else if s.busy then .answered (.refused .commandWhileBusy)
  else issue cmd (s.accept cmd din rest)

/-- The host's next event: with none the block waits (rule R150; log 7); reset acts in any state. -/
def fetch (s : State) : Fetched :=
  match s.inputs with
  | [] => .answered (.next s)
  | .reset :: rest => .answered (.next (s.applyReset rest))
  | .command cmd din :: rest => present cmd din rest s

/-- The word presented as the host's very next command, with the `DIN` value the host is driving. -/
def State.presentWord (s : State) (cmd : CmdWord) : State :=
  { s with inputs := .command cmd s.port.din :: s.inputs }

/-- All the host can read (rules R23, R24, R155), at any time and without side effect. It cannot read a
vector register, and cannot see `A`, `S`, `P`. -/
structure HostView where
  /-- The data-out latch. -/
  dout : Slot
  /-- `BUSY`. -/
  busy : Bool
  /-- `HALTED`. -/
  halted : Bool
  /-- `FAULT`. -/
  fault : BitVec 3
  /-- `FINFO`. -/
  finfo : CmdWord
deriving DecidableEq, Repr

/-- The host's view of a state. -/
def hostView (s : State) : HostView :=
  { dout := s.dout, busy := s.busy, halted := s.halted, fault := s.fault, finfo := s.finfo }

end Sys2Proof.Machine
end

