-- ==== Sys2Proof/Machine/Operands.lean ====
section
/-! DEFINITION. Reading source registers, and the notation of 00_scope.md section 4.1 on bit vectors:
values, slices, padding and alignment. All functions are total, at length 0 too, where no rule relies on
them (D4; log 9). -/

namespace Sys2Proof.Machine

/-- Read one source register (rules R13, R132): its vector, or the fault `UnwrittenRegister`. -/
def withSource (r : RegId) (s : State) (k : Bits → Result) : Result :=
  match s.reg r with
  | .unwritten => takeFault .unwrittenRegister s
  | .held v => k v

/-- Read both sources before anything is written (rule R15), `ra` first (rule R137). -/
def withSources (ra rb : RegId) (s : State) (k : Bits → Bits → Result) : Result :=
  withSource ra s fun a => withSource rb s fun b => k a b

/-- `v.bits[i]`, the bit at index `i` from the most-significant end (rule R8). -/
def bitAt (v : Bits) (i : Nat) : Bool := v.getD i false

/-- `lsb(v, k)`, the bit of weight `2^k`: `v.bits[v.len - 1 - k]`; 0 beyond the vector. -/
def lsb (v : Bits) (k : Nat) : Bool := v.reverse.getD k false

/-- `val(v)`, the unsigned magnitude `Σ v.bits[i] * 2^(v.len-1-i)` (rules R8, R9). -/
def val : Bits → Nat
  | [] => 0
  | b :: v => b.toNat * 2 ^ v.length + val v

/-- `sval(v)`, the two's-complement reading (00_scope.md section 4.1). -/
def sval (v : Bits) : Int := if bitAt v 0 then (val v : Int) - 2 ^ v.length else val v

/-- `zeros(n)`: `n` bits all 0. -/
def zeros (n : Nat) : Bits := List.replicate n false

/-- `one(n)`: only the least-significant bit set. -/
def one : Nat → Bits
  | 0 => []
  | n + 1 => zeros n ++ [true]

/-- `flip(v)`: every bit inverted. -/
def flip (v : Bits) : Bits := v.map (!·)

/-- `pad(v, n)`, P1DOC's `padWithLeadingZeroes(n)` (rule R70): `zeros(n) ++ v`. -/
def pad (v : Bits) (n : Nat) : Bits := zeros n ++ v

/-- The working width `max(a.len, b.len)`. -/
def width (a b : Bits) : Nat := max a.length b.length

/-- `equalize(a, b)` (rule R71): both operands padded to the working width `W`, and `W`. -/
def equalize (a b : Bits) : Bits × Bits × Nat :=
  (pad a (width a b - a.length), pad b (width a b - b.length), width a b)

end Sys2Proof.Machine
end

