-- ==== Sys2Proof/Machine/Flags.lean ====
section
/-! DEFINITION. The carry. The block has no flag register, no condition codes and no predicate (rule R17):
the carry of the ripple adder is the only thing of the kind, and it exists inside one addition. -/

namespace Sys2Proof.Machine

/-- `maj(x, y, z)`, the majority of three bits: a cell's carry out (rule R88). -/
def maj (x y z : Bool) : Bool := (x && y) || (x && z) || (y && z)

/-- A cell's sum bit (rule R88). -/
def cellSum (x y c : Bool) : Bool := xor (xor x y) c

/-- The chain of full-adder cells over two equalised vectors (rule R85), from the least-significant
position, the LAST of the list, to the most-significant: the sum bits and the carry out of index 0. -/
def rippleChain : Bits → Bits → Bool → Bits × Bool
  | x :: a, y :: b, c =>
    let low := rippleChain a b c
    (cellSum x y low.2 :: low.1, maj x y low.2)
  | _, _, c => ([], c)

/-- `ripple(a, b)` (rule R85): equalise, then ripple with carry-in 0 (D27). -/
def ripple (a b : Bits) : Bits × Bool :=
  rippleChain (equalize a b).1 (equalize a b).2.1 false

end Sys2Proof.Machine
end

