-- ==== Sys2Proof/Machine/Addition.lean ====
section
/-! DEFINITION. ADD and ADDNC: the ripple-carry adder (43_addition.md). -/

namespace Sys2Proof.Machine

/-- `add(a, b)` (rules R85, R86): the final carry in front of the sum, length `W + 1`. -/
def add (a b : Bits) : Bits := (ripple a b).2 :: (ripple a b).1

/-- `addnc(a, b)` (rules R85, R87): the final carry dropped, length `W`. -/
def addnc (a b : Bits) : Bits := (ripple a b).1

/-- `ADD rd, ra, rb` (rule R86). -/
def execAdd (rd ra rb : RegId) (s : State) : Result :=
  withSources ra rb s fun a b =>
    if fits s.cfg ((ripple a b).1.length + 1) then
      writeback rd (add a b) ((s.work.latch a b).setCarry (ripple a b).2) s
    else takeFault .lengthOverflow s

/-- `ADDNC rd, ra, rb` (rule R87). -/
def execAddnc (rd ra rb : RegId) (s : State) : Result :=
  withSources ra rb s fun a b =>
    writeback rd (addnc a b) ((s.work.latch a b).setCarry (ripple a b).2) s

end Sys2Proof.Machine
end

