-- ==== Sys2Proof/Machine/Bitwise.lean ====
section
/-! DEFINITION. AND, OR, XOR: the bitwise engine (42_bitwise.md). -/

namespace Sys2Proof.Machine

/-- `bw(f, a, b)` (rule R75): the `min(a.len, b.len)` least-significant positions are combined, matched
by weight; the leading bits of a longer left operand are kept, those of a longer right operand take no
part. No padding (rule R34). -/
def bw (f : Bool → Bool → Bool) (a b : Bits) : Bits :=
  let m := min a.length b.length
  a.take (a.length - m) ++ List.zipWith f (a.drop (a.length - m)) (b.drop (b.length - m))

/-- `AND`'s result (rule R76): `bw`, then the leading bits of a longer LEFT operand are cleared. -/
def andVec (a b : Bits) : Bits :=
  zeros (a.length - b.length) ++ (bw (· && ·) a b).drop (a.length - b.length)

/-- `OR`'s result (rule R77). -/
def orVec (a b : Bits) : Bits := bw (· || ·) a b

/-- `XOR`'s result (rule R78). -/
def xorVec (a b : Bits) : Bits := bw xor a b

/-- `AND rd, ra, rb` (rule R76). -/
def execAnd (rd ra rb : RegId) (s : State) : Result :=
  withSources ra rb s fun a b => writeback rd (andVec a b) (s.work.latch a b) s

/-- `OR rd, ra, rb` (rule R77). -/
def execOr (rd ra rb : RegId) (s : State) : Result :=
  withSources ra rb s fun a b => writeback rd (orVec a b) (s.work.latch a b) s

/-- `XOR rd, ra, rb` (rule R78). -/
def execXor (rd ra rb : RegId) (s : State) : Result :=
  withSources ra rb s fun a b => writeback rd (xorVec a b) (s.work.latch a b) s

end Sys2Proof.Machine
end

