-- ==== Sys2Proof/Machine/Construction.lean ====
section
/-! DEFINITION. LDV, STV, MOV (40_construction.md section 2). -/

namespace Sys2Proof.Machine

/-- `LDV rd` (rules R65, R134): the length of `DIN` is all that is checked; any bit pattern loads. -/
def execLdv (rd : RegId) (s : State) : Result :=
  if s.port.din.length = 0 then takeFault .badLength s
  else if fits s.cfg s.port.din.length then writeback rd s.port.din s.work s
  else takeFault .badLength s

/-- `STV ra` (rule R66): `DOUT` takes the vector, the register keeps it. -/
def execStv (ra : RegId) (s : State) : Result :=
  withSource ra s fun v => outputVector v (s.work.latchOne v) s

/-- `MOV rd, ra` (rule R67): clone, same length and same bits. -/
def execMov (rd ra : RegId) (s : State) : Result :=
  withSource ra s fun v => writeback rd v (s.work.latchOne v) s

end Sys2Proof.Machine
end

