-- ==== Sys2Proof/Machine/Negation.lean ====
section
/-! DEFINITION. NEG: the two's-complement negator (44_negation.md). -/

namespace Sys2Proof.Machine

/-- The negator's ripple pass (rule R95): every bit flipped, plus the `W`-bit vector `one(W)`. -/
def negPass (v : Bits) : Bits × Bool := ripple (flip v) (one v.length)

/-- `neg(v)` (rule R95): width-preserving, the carry out dropped (C4). -/
def neg (v : Bits) : Bits := (negPass v).1

/-- `NEG rd, ra` (rule R96). -/
def execNeg (rd ra : RegId) (s : State) : Result :=
  withSource ra s fun v => writeback rd (neg v) ((s.work.latchOne v).setCarry (negPass v).2) s

end Sys2Proof.Machine
end

