-- ==== Sys2Proof/Machine/Multiplication.lean ====
section
/-! DEFINITION. MUL and ASR: the arithmetic shifter, the Booth registers, the accumulator control and the
cycle (46_multiplication.md). -/

namespace Sys2Proof.Machine

/-- `asr(p)` (rule R107): one place toward the least-significant end, index 0 replicated. -/
def asr : Bits → Bits
  | [] => []
  | b :: v => b :: (b :: v).dropLast

/-- The three Booth registers and the counters at the start of a `MUL` (rules R108, R109), from the
operand latches: the multiplicand `X`, the multiplier `Y`. -/
def boothInit (w : Working) : Working :=
  let e := equalize w.latchX w.latchY
  let n := e.2.2
  { w with
    n := n
    cyc := 0
    carry := (negPass e.1).2
    regA := e.1 ++ zeros (n + 1)
    regS := neg e.1 ++ zeros (n + 1)
    regP := zeros n ++ e.2.1 ++ [false] }

/-- What the accumulator control selects (rule R110). -/
inductive BoothAction where
  /-- No addition. -/
  | hold
  /-- `P ← addnc(P, A)`. -/
  | addA
  /-- `P ← addnc(P, S)`. -/
  | addS
deriving DecidableEq, Repr

/-- The selection by the two least-significant bits of `P` (rule R110, C1). -/
def boothSelect (secondToLast last : Bool) : BoothAction :=
  match secondToLast, last with
  | false, true => .addA
  | true, false => .addS
  | false, false => .hold
  | true, true => .hold

/-- What the accumulator control selects in a cycle: `secondToLast = P.bits[ASP-2]`,
`last = P.bits[ASP-1]` (rule R110), `ASP = 2n + 1` (rule R108). -/
def boothSelected (w : Working) : BoothAction :=
  boothSelect (bitAt w.regP (2 * w.n - 1)) (bitAt w.regP (2 * w.n))

/-- The action of one cycle (rule R110). -/
def boothAct (w : Working) : Working :=
  match boothSelected w with
  | .hold => w
  | .addA => { w with regP := addnc w.regP w.regA, carry := (ripple w.regP w.regA).2 }
  | .addS => { w with regP := addnc w.regP w.regS, carry := (ripple w.regP w.regS).2 }

/-- One cycle (rule R111): the action, then the shift, which happens in every cycle. -/
def boothCycle (w : Working) : Working :=
  let t := boothAct w
  { t with regP := asr t.regP, cyc := t.cyc + 1 }

/-- `k` cycles. -/
def boothRun : Nat → Working → Working
  | 0, w => w
  | k + 1, w => boothRun k (boothCycle w)

/-- A whole multiplication on the latched operands (rules R111, R113): exactly `n` cycles. -/
def multiply (w : Working) : Working := boothRun (boothInit w).n (boothInit w)

/-- The product (rule R112): the least-significant bit of `P` discarded, a zero on top. -/
def boothResult (w : Working) : Bits := false :: w.regP.take (2 * w.n)

/-- `mul(m, r)` (rule R113), `m` the multiplicand, `r` the multiplier. Outside `MulPre` it is the same
definite pattern (rule R115, D20; log 6). -/
def mul (m r : Bits) : Bits := boothResult (multiply (Working.cleared.latch m r))

/-- `MulPre(m, r)` (rule R114): both equalised operands have a zero at index 0. -/
def mulPre (m r : Bits) : Bool := !bitAt (equalize m r).1 0 && !bitAt (equalize m r).2.1 0

/-- `MUL rd, ra, rb` (rule R116). -/
def execMul (rd ra rb : RegId) (s : State) : Result :=
  withSources ra rb s fun m r =>
    if fits s.cfg (2 * width m r + 1) then
      writeback rd (boothResult (multiply (s.work.latch m r))) (multiply (s.work.latch m r)) s
    else takeFault .lengthOverflow s

/-- `ASR rd, ra` (rule R117). -/
def execAsr (rd ra : RegId) (s : State) : Result :=
  withSource ra s fun p => writeback rd (asr p) (s.work.latchOne p) s

end Sys2Proof.Machine
end

