-- ==== Sys2Proof/Machine/Padding.lean ====
section
/-! DEFINITION. PAD, the alignment and padding mux driven alone (41_padding.md section 2). -/

namespace Sys2Proof.Machine

/-- `PAD rd, #n` (rule R72): `rd` is source and destination. -/
def execPad (rd : RegId) (n : Nat) (s : State) : Result :=
  withSource rd s fun v =>
    if fits s.cfg (v.length + n) then writeback rd (pad v n) (s.work.latchOne v) s
    else takeFault .lengthOverflow s

end Sys2Proof.Machine
end

