-- ==== Sys2Proof/Machine/Subtraction.lean ====
section
/-! DEFINITION. SUB: the floor-at-zero subtractor (45_subtraction.md). -/

namespace Sys2Proof.Machine

/-- The comparator's loop over two equalised vectors, most-significant index first (rule R101). -/
def ltChain : Bits → Bits → Bool
  | x :: a, y :: b => if x != y then !x else ltChain a b
  | _, _ => false

/-- `lt(a, b)` (rule R101): the unsigned magnitude comparison, exact at every length (D16). -/
def lt (a b : Bits) : Bool := ltChain (equalize a b).1 (equalize a b).2.1

/-- The subtractor's ripple pass (rule R100): the right operand is padded FIRST, then negated. -/
def subPass (a b : Bits) : Bits × Bool := ripple (equalize a b).1 (neg (equalize a b).2.1)

/-- `sub(a, b)` (rule R100): the length-1 zero when the difference is negative. -/
def sub (a b : Bits) : Bits := if lt a b then [false] else (subPass a b).1

/-- The carry cell after a subtraction: untouched when the result is floored, where R100 returns
before any pass (log 5). -/
def subCarry (a b : Bits) (c : Bool) : Bool := if lt a b then c else (subPass a b).2

/-- `SUB rd, ra, rb` (rule R102). -/
def execSub (rd ra rb : RegId) (s : State) : Result :=
  withSources ra rb s fun a b =>
    writeback rd (sub a b) ((s.work.latch a b).setCarry (subCarry a b s.work.carry)) s

end Sys2Proof.Machine
end

