-- ==== Sys2Proof/Machine/Dispatch.lean ====
section
/-! DEFINITION. What an accepted command does: one arm per constructor, one call of its meaning. -/

namespace Sys2Proof.Machine

def exec (i : Instr) (s : State) : Host.Outcome State Fault Refusal :=
  match i with
  | .ldv rd => Sys2Proof.Machine.execLdv rd s
  | .stv ra => Sys2Proof.Machine.execStv ra s
  | .mov rd ra => Sys2Proof.Machine.execMov rd ra s
  | .pad rd n => Sys2Proof.Machine.execPad rd n s
  | .and rd ra rb => Sys2Proof.Machine.execAnd rd ra rb s
  | .or rd ra rb => Sys2Proof.Machine.execOr rd ra rb s
  | .xor rd ra rb => Sys2Proof.Machine.execXor rd ra rb s
  | .add rd ra rb => Sys2Proof.Machine.execAdd rd ra rb s
  | .addnc rd ra rb => Sys2Proof.Machine.execAddnc rd ra rb s
  | .neg rd ra => Sys2Proof.Machine.execNeg rd ra s
  | .sub rd ra rb => Sys2Proof.Machine.execSub rd ra rb s
  | .mul rd ra rb => Sys2Proof.Machine.execMul rd ra rb s
  | .asr rd ra => Sys2Proof.Machine.execAsr rd ra s

end Sys2Proof.Machine
end

