-- ==== Sys2Proof/Machine/Step.lean ====
section
/-! DEFINITION. One step: the host's next event, and the whole of the command it presents (rule R22). -/

namespace Sys2Proof.Machine

/-- One atomic transition (rules R22, R36). -/
def step (s : State) : Host.Outcome State Fault Refusal :=
  match fetch s with
  | .answered o => o
  | .run i t => exec i t

/-- `s` with the opcode-table word as the host's next command (log 10). -/
def State.withFetchWord (s : State) (nbits w : Nat) : State := s.presentWord (tableWord nbits w)

end Sys2Proof.Machine
end

