-- ==== Sys2Proof/Machine/Assembly.lean ====
section
/-! DEFINITION. The assembler line of a command, and the pseudo-instructions (30_encoding.md section 4). -/

namespace Sys2Proof.Machine

/-- An operand of an assembler line (rule R48). -/
inductive AsmOperand where
  /-- A register, written `V0 ... V15`. -/
  | reg (r : RegId)
  /-- The pad count, written `#n` in decimal. -/
  | count (n : Nat)
deriving DecidableEq, Repr

/-- An assembler line (rule R48): the mnemonic in upper case, then the operands, destination first. -/
structure AsmLine where
  /-- The mnemonic. -/
  mnemonic : String
  /-- The operands in order. -/
  operands : List AsmOperand
deriving DecidableEq, Repr

/-- The assembler line of a command (rule R48). The `DIN` literal written beside an `LDV` is not part of
the command. -/
def asmLine : Instr → AsmLine
  | .ldv rd => ⟨"LDV", [.reg rd]⟩
  | .stv ra => ⟨"STV", [.reg ra]⟩
  | .mov rd ra => ⟨"MOV", [.reg rd, .reg ra]⟩
  | .pad rd n => ⟨"PAD", [.reg rd, .count n]⟩
  | .and rd ra rb => ⟨"AND", [.reg rd, .reg ra, .reg rb]⟩
  | .or rd ra rb => ⟨"OR", [.reg rd, .reg ra, .reg rb]⟩
  | .xor rd ra rb => ⟨"XOR", [.reg rd, .reg ra, .reg rb]⟩
  | .add rd ra rb => ⟨"ADD", [.reg rd, .reg ra, .reg rb]⟩
  | .addnc rd ra rb => ⟨"ADDNC", [.reg rd, .reg ra, .reg rb]⟩
  | .neg rd ra => ⟨"NEG", [.reg rd, .reg ra]⟩
  | .sub rd ra rb => ⟨"SUB", [.reg rd, .reg ra, .reg rb]⟩
  | .mul rd ra rb => ⟨"MUL", [.reg rd, .reg ra, .reg rb]⟩
  | .asr rd ra => ⟨"ASR", [.reg rd, .reg ra]⟩

/-- An operand as text. -/
def asmOperandText : AsmOperand → String
  | .reg r => "V" ++ toString r.val
  | .count n => "#" ++ toString n

/-- A line as text, the operands separated by commas (rule R48). -/
def asmText (l : AsmLine) : String :=
  l.mnemonic ++ " " ++ ", ".intercalate (l.operands.map asmOperandText)

/-- The binary commands that have an in-place pseudo-instruction (rule R49). -/
inductive BinaryOp where
  | and | or | xor | add | addnc | sub | mul
deriving DecidableEq, Repr

/-- The three-register command of a binary operation. -/
def BinaryOp.command : BinaryOp → RegId → RegId → RegId → Instr
  | .and => .and
  | .or => .or
  | .xor => .xor
  | .add => .add
  | .addnc => .addnc
  | .sub => .sub
  | .mul => .mul

/-- The pseudo-instructions of rule R49. -/
inductive Pseudo where
  /-- `AND.I Vd, Vb` and its likes: the in-place mutator `d.op(b)`. -/
  | binaryI (op : BinaryOp) (vd vb : RegId)
  /-- `NEG.I Vd`. -/
  | negI (vd : RegId)
  /-- `ASR.I Vd`. -/
  | asrI (vd : RegId)
  /-- `CLONE Vd, Va`. -/
  | clone (vd va : RegId)
deriving DecidableEq, Repr

/-- The expansion of a pseudo-instruction (rule R49). -/
def expand : Pseudo → Instr
  | .binaryI op vd vb => op.command vd vd vb
  | .negI vd => .neg vd vd
  | .asrI vd => .asr vd vd
  | .clone vd va => .mov vd va

end Sys2Proof.Machine
end

