-- ==== Sys2Proof/Machine/HostSide.lean ====
section
/-! DEFINITION. The host-side functions (40_construction.md section 1): they run on the host, not in the
block, and no command calls them. The native integer type is the naturals (rule R7, D22; log 12). -/

namespace Sys2Proof.Machine

/-- The `len` bits of `i`, most-significant first: `lsb(·, k) = floor(i / 2^k) mod 2` (rule R60). -/
def bitsOf : Nat → Nat → Bits
  | 0, _ => []
  | len + 1, i => i.testBit len :: bitsOf len i

/-- `fromNat(i)` (rules R60, R62): `floor(log2 i) + 2` bits for `i ≥ 1`, and `"00"` for 0. -/
def fromNat (i : Nat) : Bits := if i = 0 then [false, false] else bitsOf (i.log2 + 2) i

/-- `toNat(v)` by the fold of rule R63. -/
def toNat (v : Bits) : Nat := v.foldl (fun acc b => 2 * acc + b.toNat) 0

/-- `display(v)` (rule R64) as its list of characters: the two-character marker, then one `1` or `0` a
bit in storage order. -/
def display (v : Bits) : List Char :=
  Config.marker.1 :: Config.marker.2 :: v.map fun b => if b then '1' else '0'

end Sys2Proof.Machine
end

