-- ==== Sys2Proof/Safety.lean ====
section
/-! DEFINITION. The terms in which claims are made: the invariant of the block's state, which registers a
command reads and writes, which fault it raises, a completed command, a run and its success. -/

namespace Sys2Proof.Machine

/-- What a register or the data-out latch may hold: *unwritten*, or a vector of length `1 .. MAXLEN`
(rules R6, R13). -/
def slotOk (c : Config) : Slot → Bool
  | .unwritten => true
  | .held v => decide (1 ≤ v.length) && fits c v.length

/-- The invariant of the block between commands: every register and `DOUT` holds what it may
(rules R6, R13), `BUSY = 0` (rule R24), `HALTED` says exactly that a fault is recorded, the recorded
code is one of rule R130's, and `FINFO` is 0 while none is. -/
abbrev State.Inv (s : State) : Prop :=
  (∀ r : RegId, slotOk s.cfg (s.reg r) = true) ∧ slotOk s.cfg s.dout = true ∧ s.busy = false ∧
    (s.halted = true ↔ s.fault ≠ 0) ∧ s.fault.toNat ≤ 4 ∧ (s.fault = 0 → s.finfo = 0)

/-- The vector registers a command reads, in the order it reads them (rules R14, R137). -/
def sources : Instr → List RegId
  | .ldv _ => []
  | .stv ra => [ra]
  | .mov _ ra => [ra]
  | .pad rd _ => [rd]
  | .and _ ra rb => [ra, rb]
  | .or _ ra rb => [ra, rb]
  | .xor _ ra rb => [ra, rb]
  | .add _ ra rb => [ra, rb]
  | .addnc _ ra rb => [ra, rb]
  | .neg _ ra => [ra]
  | .sub _ ra rb => [ra, rb]
  | .mul _ ra rb => [ra, rb]
  | .asr _ ra => [ra]

/-- The vector register a command writes (rule R14); `STV` writes only the data-out latch. -/
def destination : Instr → Option RegId
  | .ldv rd => some rd
  | .stv _ => none
  | .mov rd _ => some rd
  | .pad rd _ => some rd
  | .and rd _ _ => some rd
  | .or rd _ _ => some rd
  | .xor rd _ _ => some rd
  | .add rd _ _ => some rd
  | .addnc rd _ _ => some rd
  | .neg rd _ => some rd
  | .sub rd _ _ => some rd
  | .mul rd _ _ => some rd
  | .asr rd _ => some rd

/-- The length of the vector a register holds, 0 for *unwritten*. -/
def heldLength (s : State) (r : RegId) : Nat :=
  match s.reg r with
  | .unwritten => 0
  | .held v => v.length

/-- The fault a length causes, for a command whose sources are written (rules R133, R134). -/
def lengthFault (i : Instr) (s : State) : Option Fault :=
  match i with
  | .ldv _ =>
    if 1 ≤ s.port.din.length ∧ fits s.cfg s.port.din.length = true then none else some .badLength
  | .pad rd n => if fits s.cfg (heldLength s rd + n) then none else some .lengthOverflow
  | .add _ ra rb =>
    if fits s.cfg (max (heldLength s ra) (heldLength s rb) + 1) then none else some .lengthOverflow
  | .mul _ ra rb =>
    if fits s.cfg (2 * max (heldLength s ra) (heldLength s rb) + 1) then none else some .lengthOverflow
  | .stv _ | .mov _ _ | .neg _ _ | .asr _ _ => none
  | .and _ _ _ | .or _ _ _ | .xor _ _ _ | .addnc _ _ _ | .sub _ _ _ => none

/-- The fault a legal command raises, by the causes of rules R132 to R134 in the order of rule R137. -/
def faultOf (i : Instr) (s : State) : Option Fault :=
  if (sources i).any (fun r => s.reg r == .unwritten) then some .unwrittenRegister else lengthFault i s

/-- The command completes: `rd` holds `v`, `BUSY` is 0, and nothing else of the state differs but the
unobservable working state (rules R14, R18, R22). -/
def CompletesWith (i : Instr) (s : State) (rd : RegId) (v : Bits) : Prop :=
  ∃ w, exec i s = .next { s with regs := s.regs.set rd (.held v), work := w, busy := false }

/-- The command takes the fault `f` (rule R135): no register and no `DOUT` is written. -/
def Faults (i : Instr) (s : State) (f : Fault) (code : BitVec 3) : Prop :=
  faultCode f = code ∧
    exec i s = .next { s with fault := code, finfo := s.port.cmd, halted := true, busy := false }

/-- The two states differ at most in the state inside a command. -/
def EqButWork (s t : State) : Prop := { s with work := t.work } = t

/-- Two answers that differ at most in the state inside a command. -/
def AnswersEqButWork : Result → Result → Prop
  | .next s, .next t => EqButWork s t
  | .fault f, .fault g => f = g
  | .refused f, .refused g => f = g
  | _, _ => False

/-- A run (rule R153): the host's events, applied in order from `s`. -/
def runEvents (es : List HostEvent) (s : State) : Result :=
  Host.Core.run Sys2Proof.core es.length { s with inputs := es }

/-- A run that ended in this state succeeded (rule R153). -/
def Succeeded (s : State) : Bool := !s.halted

/-- The number of additions in the next `k` Booth cycles (rule R119): the cycles in which the accumulator
control selects one (rule R110). -/
def boothAdditions : Nat → Working → Nat
  | 0, _ => 0
  | k + 1, w => (if boothSelected w = .hold then 0 else 1) + boothAdditions k (boothCycle w)

end Sys2Proof.Machine
end

