-- ==== Sys2Proof/Certificates/Slice0/Obligations.lean ====
section
/-! DEFINITION. The statements about the block for the provers. -/

open Sys2Proof Sys2Proof.Machine

/-! ## Encoding (30_encoding.md) -/

/-- R41, R43: no bit of an encoding is dropped; `PAD`'s count keeps all its eight bits. -/
def Obligations.DecodeOfEncode : Prop :=
  ∀ i : Instr, i.wellFormed = true → decode (encode i) = .ok i

/-- R46: every legal word is exactly one command, a well-formed one, and that command's word. -/
def Obligations.EncodeOfDecode : Prop :=
  ∀ (w : CmdWord) (i : Instr), decode w = .ok i → i.wellFormed = true ∧ encode i = w

/-- R46, R131: decoding is total, and a word is illegal exactly when its opcode is reserved or a must-be-zero
field of its format is not zero; presented to an accepting block it raises `IllegalCommand`, code 1. The
fields are read as numbers: `cmd[15:12]` is `w / 4096`. -/
def Obligations.DecodeTotal : Prop :=
  ∀ w : CmdWord,
    (∀ i j : Instr, decode w = .ok i → decode w = .ok j → i = j) ∧
    ((∃ e, decode w = .error e) ↔
      (w.toNat / 4096 = 0x0 ∨ w.toNat / 4096 = 0xE ∨ w.toNat / 4096 = 0xF ∨
      ((w.toNat / 4096 = 0x3 ∨ w.toNat / 4096 = 0xA ∨ w.toNat / 4096 = 0xD) ∧ w.toNat % 16 ≠ 0) ∨
      (w.toNat / 4096 = 0x1 ∧ w.toNat % 256 ≠ 0) ∨
      (w.toNat / 4096 = 0x2 ∧ (w.toNat / 256 % 16 ≠ 0 ∨ w.toNat % 16 ≠ 0)))) ∧
    ∀ s : State, s.halted = false → s.busy = false →
      (∃ e, decode w = .error e) → ∀ din rest, s.inputs = .command w din :: rest →
        step s = .next { s with port := ⟨w, din⟩, inputs := rest, fault := 1, finfo := w,
                                halted := true }

/-- R43: the decoder is the opcode map, and the rows are disjoint. -/
def Obligations.OpcodeMapDecodes : Prop :=
  ∀ w : CmdWord,
    (∀ r ∈ opcodeMap, ∀ r' ∈ opcodeMap, r.admits w = true → r'.admits w = true → r = r') ∧
    (∀ i, decode w = .ok i → i.row ∈ opcodeMap ∧ i.row.admits w = true) ∧
    ((∃ r ∈ opcodeMap, r.admits w = true) ↔ ∃ i, decode w = .ok i)

/-- R42: `PAD`'s immediate is unsigned, not scaled, not shifted: the word `4 d ii` is `PAD Vd, #ii`. -/
def Obligations.PadCountUnsigned : Prop :=
  ∀ (rd : RegId) (n : Nat), n ≤ 255 →
    decode (BitVec.ofNat 16 (0x4000 + rd.val * 256 + n)) = .ok (.pad rd n)

/-- 30_encoding.md section 5: worked encodings, one of each format and family, and illegal words. -/
def Obligations.WorkedEncodings : Prop :=
  decode 0x1300 = .ok (.ldv 3) ∧ decode 0x2020 = .ok (.stv 2) ∧ decode 0x3420 = .ok (.mov 4 2) ∧
  decode 0x4305 = .ok (.pad 3 5) ∧ decode 0x5201 = .ok (.and 2 0 1) ∧ decode 0x6201 = .ok (.or 2 0 1) ∧
  decode 0x7111 = .ok (.xor 1 1 1) ∧ decode 0x8201 = .ok (.add 2 0 1) ∧
  decode 0x9201 = .ok (.addnc 2 0 1) ∧ decode 0xA110 = .ok (.neg 1 1) ∧
  decode 0xB201 = .ok (.sub 2 0 1) ∧ decode 0xC001 = .ok (.mul 0 0 1) ∧
  decode 0xD540 = .ok (.asr 5 4) ∧ decode 0x3421 = .error .mustBeZero ∧
  decode 0x2120 = .error .mustBeZero ∧ decode 0x0000 = .error .reservedOpcode ∧
  decode 0xE000 = .error .reservedOpcode ∧ decode 0xFFFF = .error .reservedOpcode

/-! ## Construction and conversion, host side (40_construction.md) -/

/-- R60: the length and every bit of `fromNat(i)` for `i ≥ 1`. -/
def Obligations.FreshVectorBits : Prop :=
  ∀ i : Nat, 1 ≤ i →
    (fromNat i).length = Nat.log 2 i + 2 ∧
    ∀ k, k < (fromNat i).length → (lsb (fromNat i) k).toNat = i / 2 ^ k % 2

/-- R61: every output of `fromNat` has index 0 equal to 0, that of 0 among them. -/
def Obligations.FreshLeadingZero : Prop :=
  fromNat 0 = [false, false] ∧ ∀ i : Nat, (fromNat i)[0]? = some false

/-- R63: `toNat` is `val`, exact at every length. -/
def Obligations.ConversionExact : Prop := ∀ v : Bits, toNat v = val v

/-- R68: the round trip, 0 included. -/
def Obligations.ConversionRoundTrip : Prop := ∀ n : Nat, toNat (fromNat n) = n

/-! ## The units (41 to 46) -/

/-- R70: padding, its bits, its value, its composition. -/
def Obligations.PaddingLaws : Prop :=
  ∀ (v : Bits) (n : Nat),
    (pad v n).length = v.length + n ∧
    (∀ i, i < n → (pad v n)[i]? = some false) ∧
    (∀ j, j < v.length → (pad v n)[n + j]? = v[j]?) ∧
    val (pad v n) = val v ∧
    (∀ k, k < v.length → lsb (pad v n) k = lsb v k) ∧
    (∀ k, v.length ≤ k → lsb (pad v n) k = false) ∧
    pad v 0 = v ∧
    ∀ m, pad (pad v n) m = pad v (n + m)

/-- R71: after `equalize` both operands have length `W`, keep their values, and index `i` of one has the
weight of index `i` of the other: the bit of weight `2^k` is where it was. -/
def Obligations.EqualizeAligns : Prop :=
  ∀ a b : Bits,
    (equalize a b).2.2 = max a.length b.length ∧
    (equalize a b).1.length = (equalize a b).2.2 ∧ (equalize a b).2.1.length = (equalize a b).2.2 ∧
    (b.length ≤ a.length → (equalize a b).1 = a) ∧ (a.length ≤ b.length → (equalize a b).2.1 = b) ∧
    val (equalize a b).1 = val a ∧ val (equalize a b).2.1 = val b ∧
    ∀ k, k < (equalize a b).2.2 →
      (equalize a b).1[(equalize a b).2.2 - 1 - k]? = some (lsb a k) ∧
      (equalize a b).2.1[(equalize a b).2.2 - 1 - k]? = some (lsb b k)

/-- R75: the bitwise unit position by position: the common positions are combined by weight, the leading
bits of a longer left operand are its own, the length is the left operand's. -/
def Obligations.BitwiseByWeight : Prop :=
  ∀ (f : Bool → Bool → Bool) (a b : Bits),
    (bw f a b).length = a.length ∧
    (∀ k, k < min a.length b.length →
      (bw f a b)[a.length - 1 - k]? =
        some (f (bitAt a (a.length - 1 - k)) (bitAt b (b.length - 1 - k)))) ∧
    ∀ i, i < a.length - min a.length b.length → (bw f a b)[i]? = a[i]?

/-- R79: the values of the three bitwise results, and that `OR` is not commutative in value. -/
def Obligations.BitwiseValues : Prop :=
  (val (orVec [false, true] [false, true, false, false, false]) = 1 ∧
    val (orVec [false, true, false, false, false] [false, true]) = 9) ∧
  ∀ a b : Bits,
    val (andVec a b) = val a &&& val b ∧
    val (orVec a b) = val a ||| (val b % 2 ^ a.length) ∧
    val (xorVec a b) = val a ^^^ (val b % 2 ^ a.length) ∧
    (val (orVec a b) = val a ||| val b ↔ val b < 2 ^ a.length) ∧
    (val (xorVec a b) = val a ^^^ val b ↔ val b < 2 ^ a.length)

/-- R80: the identities on equal operands. -/
def Obligations.BitwiseIdentities : Prop :=
  ∀ a : Bits, andVec a a = a ∧ orVec a a = a ∧ xorVec a a = zeros a.length ∧
    val (xorVec a a) = 0

/-- R88: the full-adder cell. -/
def Obligations.CellTable : Prop :=
  ∀ x y c : Bool,
    2 * (maj x y c).toNat + (cellSum x y c).toNat = x.toNat + y.toNat + c.toNat

/-- R85: the ripple pass has the working width and the exact value law, the carry counted at `2^W`; each
sum bit is the exclusive or of the two operand bits and of the carry out of the positions below. -/
def Obligations.RippleExact : Prop :=
  ∀ a b : Bits,
    add a b = (ripple a b).2 :: (ripple a b).1 ∧ addnc a b = (ripple a b).1 ∧
    (ripple a b).1.length = max a.length b.length ∧
    val (ripple a b).1 + 2 ^ max a.length b.length * (ripple a b).2.toNat = val a + val b ∧
    ∀ k, k < max a.length b.length →
      lsb (ripple a b).1 k =
        xor (xor (lsb a k) (lsb b k)) (decide (2 ^ k ≤ val a % 2 ^ k + val b % 2 ^ k))

/-- R89: lengths and values of `add` and `addnc`, commutativity bit for bit, associativity on values,
lengths of the two associations that differ. -/
def Obligations.AdditionLaws : Prop :=
  (∀ a b : Bits,
    (add a b).length = max a.length b.length + 1 ∧ val (add a b) = val a + val b ∧
    (addnc a b).length = max a.length b.length ∧
    val (addnc a b) = (val a + val b) % 2 ^ max a.length b.length ∧
    add a b = add b a ∧ addnc a b = addnc b a) ∧
  (∀ a b c : Bits, val (add (add a b) c) = val (add a (add b c))) ∧
  ∃ a b c : Bits, a.length = 2 ∧ b.length = 2 ∧ c.length = 5 ∧
    (add (add a b) c).length = 6 ∧ (add a (add b c)).length = 7

/-- R97: the negator's laws. -/
def Obligations.NegationLaws : Prop :=
  (∀ v : Bits, 1 ≤ v.length →
    (neg v).length = v.length ∧
    val (neg v) = (2 ^ v.length - val v) % 2 ^ v.length ∧
    (v ≠ true :: zeros (v.length - 1) → sval (neg v) = - sval v) ∧
    neg (neg v) = v ∧
    (bitAt v 0 = false → 0 < val v → bitAt (neg v) 0 = true)) ∧
  ∀ n : Nat, neg (zeros (n + 1)) = zeros (n + 1) ∧ neg (true :: zeros n) = true :: zeros n

/-- R101: the comparator is exact on magnitudes, and where it may not be replaced by the carry of the
subtractor's pass. -/
def Obligations.ComparatorExact : Prop :=
  ∀ a b : Bits,
    (lt a b = true ↔ val a < val b) ∧
    (0 < val b → ((subPass a b).2 = true ↔ val b ≤ val a)) ∧
    (val b = 0 → (subPass a b).2 = false)

/-- R103: the subtractor's laws, for every pair of vectors. -/
def Obligations.SubtractionLaws : Prop :=
  ∀ a b : Bits,
    (val a < val b → sub a b = [false]) ∧
    (val b ≤ val a →
      (sub a b).length = max a.length b.length ∧ val (sub a b) = val a - val b) ∧
    (val a = val b → sub a b = zeros (max a.length b.length)) ∧
    (val b = 0 → sub a b = pad a (max a.length b.length - a.length)) ∧
    (val b ≤ val a → bitAt (equalize a b).1 0 = false → bitAt (sub a b) 0 = false)

/-- R107: the arithmetic shifter, index by index, and its signed value. -/
def Obligations.ShiftLaws : Prop :=
  ∀ p : Bits, 1 ≤ p.length →
    (asr p).length = p.length ∧ (asr p)[0]? = p[0]? ∧
    (∀ i, 1 ≤ i → i < p.length → (asr p)[i]? = p[i - 1]?) ∧
    sval (asr p) = sval p / 2 ∧
    (p.length = 1 → asr p = p)

/-- R114: THE PRODUCT LAW, `MulPre` spelled on the unpadded operands, and the three leading zeros. -/
def Obligations.ProductLaw : Prop :=
  (∀ m r : Bits, 1 ≤ m.length → 1 ≤ r.length →
    (mulPre m r = true ↔
      (r.length ≤ m.length → bitAt m 0 = false) ∧ (m.length ≤ r.length → bitAt r 0 = false)) ∧
    (mulPre m r = true →
      (mul m r).length = 2 * max m.length r.length + 1 ∧
      val (mul m r) = val m * val r ∧
      bitAt (mul m r) 0 = false ∧ bitAt (mul m r) 1 = false ∧ bitAt (mul m r) 2 = false)) ∧
  ∀ x y : Nat, mulPre (fromNat x) (fromNat y) = true

/-- 46_multiplication.md section 4, the pattern outside `MulPre`, which the model computes by its own
choice of the two treatments the spec allows (log 6, DESIGN CHOICE): the signed
product modulo `2^(2n)`, the most negative multiplicand read as `+2^(n-1)`. -/
def Obligations.SignedProductPattern : Prop :=
  ∀ m r : Bits, 1 ≤ m.length → 1 ≤ r.length →
    let n := max m.length r.length
    let m' := (equalize m r).1
    let sm : Int := if m' = true :: zeros (n - 1) then 2 ^ (n - 1) else sval m'
    (val (mul m r) : Int) = (sm * sval (equalize m r).2.1) % 2 ^ (2 * n)

/-- R118: width and leading zero of every product, with or without `MulPre`. -/
def Obligations.ProductShape : Prop :=
  ∀ m r : Bits,
    (mul m r).length = 2 * max m.length r.length + 1 ∧
    (mul m r).length ≤ 2 * max m.length r.length + 2 ∧
    (mul m r)[0]? = some false ∧
    (r.length ≤ m.length →
      (mul m r).length = 2 * m.length + 1 ∧ (mul (mul m r) r).length = 4 * m.length + 3)

/-- R120: what an addition of a Booth cycle touches, and where the multiplier's bits are after `j`
cycles. -/
def Obligations.AccumulatorField : Prop :=
  ∀ (w : Working) (j : Nat),
    let e := equalize w.latchX w.latchY
    let n := e.2.2
    let t := boothRun j (boothInit w)
    j ≤ n → 1 ≤ n →
      addnc t.regP t.regA = addnc (t.regP.take n) e.1 ++ t.regP.drop n ∧
      addnc t.regP t.regS = addnc (t.regP.take n) (neg e.1) ++ t.regP.drop n ∧
      (∀ i, i < n - j → t.regP[n + j + i]? = e.2.1[i]?) ∧
      (1 ≤ j → t.regP[2 * n]? = e.2.1[n - j]?)

/-- 46_multiplication.md sections 3 and 6: a cycle adds `A` or `S` exactly as the pair of low bits of `P`
says, and that is the addition `boothAdditions` counts; then it shifts. A `MUL` performs exactly `n`
cycles; its additions are the places where consecutive multiplier bits differ, counting the extra bit. -/
def Obligations.BoothCounts : Prop :=
  (∀ t : Working,
    let s2 := bitAt t.regP (2 * t.n - 1)
    let l := bitAt t.regP (2 * t.n)
    (s2 = l → boothSelected t = .hold ∧ (boothCycle t).regP = asr t.regP) ∧
    (s2 = false → l = true →
      boothSelected t = .addA ∧ (boothCycle t).regP = asr (addnc t.regP t.regA)) ∧
    (s2 = true → l = false →
      boothSelected t = .addS ∧ (boothCycle t).regP = asr (addnc t.regP t.regS))) ∧
  ∀ w : Working,
    let e := equalize w.latchX w.latchY
    (multiply w).n = e.2.2 ∧ (multiply w).cyc = e.2.2 ∧
    boothAdditions e.2.2 (boothInit w) =
      ((List.range e.2.2).filter fun k =>
        lsb e.2.1 k != (if 1 ≤ k then lsb e.2.1 (k - 1) else false)).length

/-! ## The commands: where each completes and with what -/

/-- R65: `LDV` checks nothing but the length of `DIN`. (The illegal words a command rule lists are
`DecodeTotal`'s, here and below.) -/
def Obligations.LoadResult : Prop :=
  ∀ (rd : RegId) (s : State),
    (1 ≤ s.port.din.length → fits s.cfg s.port.din.length = true →
      CompletesWith (.ldv rd) s rd s.port.din) ∧
    (s.port.din.length = 0 ∨ fits s.cfg s.port.din.length = false →
      Faults (.ldv rd) s .badLength 3)

/-- R66: `STV` writes the data-out latch and nothing else; the register keeps its vector. -/
def Obligations.StoreResult : Prop :=
  ∀ (ra : RegId) (s : State),
    (∀ v, s.reg ra = .held v →
      ∃ w, exec (.stv ra) s = .next { s with dout := .held v, work := w, busy := false }) ∧
    (s.reg ra = .unwritten → Faults (.stv ra) s .unwrittenRegister 2)

/-- R67: `MOV` clones; onto itself it changes no register. -/
def Obligations.CloneResult : Prop :=
  ∀ (rd ra : RegId) (s : State),
    (∀ v, s.reg ra = .held v →
      CompletesWith (.mov rd ra) s rd v ∧ (rd = ra → s.regs.set rd (.held v) = s.regs)) ∧
    (s.reg ra = .unwritten → Faults (.mov rd ra) s .unwrittenRegister 2)

/-- R72: `PAD` in place, its three outcomes; the value stays, and a count of at least 1 gives the leading
zero; the count 0 writes the same vector back. -/
def Obligations.PadResult : Prop :=
  ∀ (rd : RegId) (n : Nat) (s : State),
    (s.reg rd = .unwritten → Faults (.pad rd n) s .unwrittenRegister 2) ∧
    ∀ v, s.reg rd = .held v →
      (fits s.cfg (v.length + n) = false → Faults (.pad rd n) s .lengthOverflow 4) ∧
      (fits s.cfg (v.length + n) = true →
        ∃ r, CompletesWith (.pad rd n) s rd r ∧ r = List.replicate n false ++ v ∧ val r = val v ∧
          (1 ≤ n → bitAt r 0 = false) ∧ (n = 0 → r = v))

/-- R76 to R78: each bit of the three bitwise results, by weight, and the left operand's length. A
position beyond the right operand reads it as 0: `AND` clears there, `OR` and `XOR` keep. -/
def Obligations.BitwiseResult : Prop :=
  ∀ (rd ra rb : RegId) (s : State),
    ((s.reg ra = .unwritten ∨ s.reg rb = .unwritten) →
      Faults (.and rd ra rb) s .unwrittenRegister 2 ∧ Faults (.or rd ra rb) s .unwrittenRegister 2 ∧
      Faults (.xor rd ra rb) s .unwrittenRegister 2) ∧
    ∀ a b, s.reg ra = .held a → s.reg rb = .held b →
      (∃ r, CompletesWith (.and rd ra rb) s rd r ∧ r.length = a.length ∧
        ∀ k, k < a.length → lsb r k = (lsb a k && lsb b k)) ∧
      (∃ r, CompletesWith (.or rd ra rb) s rd r ∧ r.length = a.length ∧
        ∀ k, k < a.length → lsb r k = (lsb a k || lsb b k)) ∧
      (∃ r, CompletesWith (.xor rd ra rb) s rd r ∧ r.length = a.length ∧
        ∀ k, k < a.length → lsb r k = xor (lsb a k) (lsb b k))

/-- R86: `ADD`: the exact sum at length `W + 1`, index 0 the final carry; or one of its two faults. -/
def Obligations.AddResult : Prop :=
  ∀ (rd ra rb : RegId) (s : State),
    ((s.reg ra = .unwritten ∨ s.reg rb = .unwritten) →
      Faults (.add rd ra rb) s .unwrittenRegister 2) ∧
    ∀ a b, s.reg ra = .held a → s.reg rb = .held b →
      let n := max a.length b.length
      (fits s.cfg (n + 1) = false → Faults (.add rd ra rb) s .lengthOverflow 4) ∧
      (fits s.cfg (n + 1) = true →
        ∃ r, CompletesWith (.add rd ra rb) s rd r ∧ r.length = n + 1 ∧ val r = val a + val b ∧
          bitAt r 0 = decide (2 ^ n ≤ val a + val b))

/-- R87: `ADDNC`: the sum modulo `2^W` at length `W`. -/
def Obligations.AddncResult : Prop :=
  ∀ (rd ra rb : RegId) (s : State),
    ((s.reg ra = .unwritten ∨ s.reg rb = .unwritten) →
      Faults (.addnc rd ra rb) s .unwrittenRegister 2) ∧
    ∀ a b, s.reg ra = .held a → s.reg rb = .held b →
      ∃ r, CompletesWith (.addnc rd ra rb) s rd r ∧ r.length = max a.length b.length ∧
        val r = (val a + val b) % 2 ^ max a.length b.length

/-- R96: `NEG`: the two's complement at the operand's own length. -/
def Obligations.NegResult : Prop :=
  ∀ (rd ra : RegId) (s : State),
    (s.reg ra = .unwritten → Faults (.neg rd ra) s .unwrittenRegister 2) ∧
    ∀ v, s.reg ra = .held v →
      ∃ r, CompletesWith (.neg rd ra) s rd r ∧ r.length = v.length ∧
        val r = (2 ^ v.length - val v) % 2 ^ v.length

/-- R102: `SUB`: the length-1 zero below zero, the exact difference at length `W` otherwise. -/
def Obligations.SubResult : Prop :=
  ∀ (rd ra rb : RegId) (s : State),
    ((s.reg ra = .unwritten ∨ s.reg rb = .unwritten) →
      Faults (.sub rd ra rb) s .unwrittenRegister 2) ∧
    ∀ a b, s.reg ra = .held a → s.reg rb = .held b →
      (val a < val b → CompletesWith (.sub rd ra rb) s rd [false]) ∧
      (val b ≤ val a →
        ∃ r, CompletesWith (.sub rd ra rb) s rd r ∧ r.length = max a.length b.length ∧
          val r = val a - val b)

/-- 46_multiplication.md section 5, `MUL`: the exact product under `MulPre`; the length and the leading
zero always; or one of its two faults. That outside `MulPre` too the vector is the pattern `mul a b` is
the model's choice of the two treatments the spec allows (log 6, DESIGN CHOICE). -/
def Obligations.MulResult : Prop :=
  ∀ (rd ra rb : RegId) (s : State),
    ((s.reg ra = .unwritten ∨ s.reg rb = .unwritten) →
      Faults (.mul rd ra rb) s .unwrittenRegister 2) ∧
    ∀ a b, s.reg ra = .held a → s.reg rb = .held b →
      let n := max a.length b.length
      (fits s.cfg (2 * n + 1) = false → Faults (.mul rd ra rb) s .lengthOverflow 4) ∧
      (fits s.cfg (2 * n + 1) = true →
        ∃ r, CompletesWith (.mul rd ra rb) s rd r ∧ r = mul a b ∧ r.length = 2 * n + 1 ∧
          bitAt r 0 = false ∧ (mulPre a b = true → val r = val a * val b))

/-- R117: `ASR`: every bit one place right, index 0 replicated, the length kept; a vector with the
leading-zero invariant is halved. -/
def Obligations.ShiftResult : Prop :=
  ∀ (rd ra : RegId) (s : State),
    (s.reg ra = .unwritten → Faults (.asr rd ra) s .unwrittenRegister 2) ∧
    ∀ p, s.reg ra = .held p →
      ∃ r, CompletesWith (.asr rd ra) s rd r ∧ r.length = p.length ∧ r[0]? = p[0]? ∧
        (∀ i, 1 ≤ i → i < p.length → r[i]? = p[i - 1]?) ∧
        (bitAt p 0 = false → val r = val p / 2) ∧ (p.length = 1 → r = p)

/-- R44: the result is the same function of the operand values for every destination: the in-place form
and the pure form write the same vector. -/
def Obligations.InPlaceMatchesPure : Prop :=
  ∀ (op : BinaryOp) (rd rd' ra rb : RegId) (s : State) (v : Bits), s.halted = false →
    CompletesWith (op.command rd ra rb) s rd v → CompletesWith (op.command rd' ra rb) s rd' v

/-- R15: a command with one register in every position computes on the values at its start; `XOR` then
writes zeros of the operand's length. -/
def Obligations.AliasedOperands : Prop :=
  ∀ (r : RegId) (s : State) (v : Bits), s.reg r = .held v →
    CompletesWith (.xor r r r) s r (zeros v.length) ∧
    CompletesWith (.and r r r) s r v ∧ CompletesWith (.or r r r) s r v ∧
    CompletesWith (.sub r r r) s r (zeros v.length)

/-! ## Faults (60_exceptions.md) -/

/-- R132: a command that reads an *unwritten* register takes `UnwrittenRegister`; `LDV` reads none, and
an *unwritten* destination that is not read is never a fault. -/
def Obligations.UnwrittenSourceFaults : Prop :=
  ∀ (i : Instr) (s : State),
    ((∃ r ∈ sources i, s.reg r = .unwritten) → Faults i s .unwrittenRegister 2) ∧
    (s.halted = false → (∀ r ∈ sources i, s.reg r ≠ .unwritten) →
      ∀ t, exec i s = .next t → t.halted = true → t.fault ≠ 2)

/-- R137: which fault is taken, in the order of priority: an illegal word first, whatever its register
fields name; then for a legal command the fault `faultOf` lists; and with none it completes with the
status as it was, so that no cause but the listed ones raises anything (R139). -/
def Obligations.FaultPriority : Prop :=
  (∀ (s : State) (cmd : CmdWord) (din : Bits) (rest : List HostEvent),
    s.halted = false → s.busy = false → s.inputs = .command cmd din :: rest → wordLegal cmd = false →
    step s = .next ((s.accept cmd din rest).faulted .illegalCommand)) ∧
  ∀ (i : Instr) (s : State),
    (∀ f, faultOf i s = some f → exec i s = .next (s.faulted f)) ∧
    (faultOf i s = none →
      ∃ t, exec i s = .next t ∧ t.halted = s.halted ∧ t.fault = s.fault ∧ t.finfo = s.finfo ∧
        t.busy = false)

/-- 60_exceptions.md section 3: taking a fault is precise: a step that halts the block was presented a
command, leaves every register and `DOUT` as they were, records a code and that command's word, and
clears `BUSY`. Three clauses are the model's choice and no rule of the spec: that the working state is
as it was too (log 5), that `MAXLEN` is (log 2), and which events are left (log 1). -/
def Obligations.FaultIsPrecise : Prop :=
  ∀ s t : State, s.halted = false → step s = .next t → t.halted = true →
    ∃ cmd din rest f, s.inputs = .command cmd din :: rest ∧
      (∀ r, t.reg r = s.reg r) ∧ t.dout = s.dout ∧ t.fault = faultCode f ∧ t.finfo = cmd ∧
      t.busy = false ∧ t.work = s.work ∧ t.cfg = s.cfg ∧ t.inputs = rest

/-- R133: `LengthOverflow` is taken exactly by `PAD`, `ADD`, `MUL` whose sources are written and whose
result would be longer than a FINITE `MAXLEN`; every other completed command that reads a register
gives a result no longer than its longer operand. -/
def Obligations.OverflowExactly : Prop :=
  ∀ (i : Instr) (s t : State), s.halted = false → exec i s = .next t →
    ((t.halted = true ∧ t.fault = 4) ↔
      (∀ r ∈ sources i, s.reg r ≠ .unwritten) ∧ ∃ k, s.cfg.maxLen = some k ∧
        ((∃ rd n, i = .pad rd n ∧ k < heldLength s rd + n) ∨
          (∃ rd ra rb, i = .add rd ra rb ∧ k < max (heldLength s ra) (heldLength s rb) + 1) ∨
          (∃ rd ra rb, i = .mul rd ra rb ∧
            k < 2 * max (heldLength s ra) (heldLength s rb) + 1))) ∧
    ((∀ rd, i ≠ .ldv rd) → (∀ rd n, i ≠ .pad rd n) → (∀ rd ra rb, i ≠ .add rd ra rb) →
      (∀ rd ra rb, i ≠ .mul rd ra rb) → t.halted = false →
      ∀ rd, destination i = some rd →
        ∃ r ∈ sources i, heldLength t rd ≤ heldLength s r)

/-- R136: while `HALTED = 1` every command presented is ignored, whatever the words and however many, and
a run that ends so did not succeed (rule R153). -/
def Obligations.HaltedIgnoresCommands : Prop :=
  ∀ (cs : List (CmdWord × Bits)) (s : State), s.halted = true →
    runEvents (cs.map fun c => .command c.1 c.2) s = .next { s with inputs := [] } ∧
    Succeeded { s with inputs := [] } = false

/-- R140: only reset clears `HALTED`, and it discards every register; any other step of a halted block
leaves the first fault on record, so no second fault is taken. -/
def Obligations.OnlyResetClearsHalted : Prop :=
  ∀ s t : State, step s = .next t → s.halted = true →
    (t.halted = false →
      (∃ rest, s.inputs = .reset :: rest) ∧ ∀ r : RegId, t.reg r = .unwritten) ∧
    (t.halted = true →
      t.fault = s.fault ∧ t.finfo = s.finfo ∧ t.dout = s.dout ∧ ∀ r : RegId, t.reg r = s.reg r)

/-! ## Reset, the step, and the whole machine -/

/-- R25: the reset values the spec states. -/
def Obligations.ResetValues : Prop :=
  (∀ r : RegId, State.reset.reg r = .unwritten) ∧ State.reset.dout = .unwritten ∧
  State.reset.busy = false ∧ State.reset.halted = false ∧ State.reset.fault = 0 ∧
  State.reset.finfo = 0

/-- 70_reset_and_hazards.md section 1: reset in any state, halted or busy among them, gives the reset
state, in which the block waits for the first command. That it keeps `MAXLEN` and what the host does next
is the model's choice (log 11, DEDUCED; logs 1 and 2). -/
def Obligations.ResetFromAnywhere : Prop :=
  ∀ (s : State) (rest : List HostEvent), s.inputs = .reset :: rest →
    ∃ t, step s = .next t ∧ (∀ r : RegId, t.reg r = .unwritten) ∧ t.dout = .unwritten ∧
      t.busy = false ∧ t.halted = false ∧ t.fault = 0 ∧ t.finfo = 0 ∧
      t.cfg = s.cfg ∧ t.inputs = rest ∧ (rest = [] → step t = .next t)

/-- R20, R22: a step at an accepting block whose presented word decodes is `exec` of that command, with
the port carrying the word and its `DIN`, `BUSY` set, and the event taken from the host's list. -/
def Obligations.StepRunsDecoded : Prop :=
  ∀ (s : State) (cmd : CmdWord) (din : Bits) (rest : List HostEvent) (i : Instr),
    s.halted = false → s.busy = false → s.inputs = .command cmd din :: rest → decode cmd = .ok i →
    step s = exec i { s with port := ⟨cmd, din⟩, busy := true, inputs := rest }

/-- Log 7 (DEDUCED from R150): with nothing presented the block waits. -/
def Obligations.WaitsForCommand : Prop :=
  ∀ s : State, s.inputs = [] → step s = .next s

/-- R14: the frame of every command: only its destination is written, `DOUT` only by `STV`; the working
state apart, everything else but the status of a fault taken is as it was. -/
def Obligations.CommandFrame : Prop :=
  ∀ (i : Instr) (s t : State), exec i s = .next t →
    (∀ r, destination i ≠ some r → t.reg r = s.reg r) ∧
    ((∀ ra, i ≠ .stv ra) → t.dout = s.dout) ∧
    t.cfg = s.cfg ∧ t.port = s.port ∧ t.inputs = s.inputs ∧ t.busy = false ∧
    ((t.halted = s.halted ∧ t.fault = s.fault ∧ t.finfo = s.finfo) ∨
      (t.halted = true ∧ t.finfo = s.port.cmd ∧ ∃ f, t.fault = faultCode f))

/-- Log 2 (DESIGN CHOICE: the state carries the parameter): no step changes `MAXLEN`, which is a
parameter of the step and no state of the block (10_state.md section 9). -/
def Obligations.CapacityConstant : Prop :=
  ∀ s t : State, step s = .next t → t.cfg = s.cfg

/-- R13, R6, R24: the reset state meets the invariant, at every capacity. -/
def Obligations.ResetMeetsInvariant : Prop :=
  ∀ c : Config, State.Inv { State.reset with cfg := c }

/-- R13, R6, R24, R130: EVERY STEP KEEPS THE INVARIANT: lengths between 1 and `MAXLEN`, `BUSY = 0`,
`HALTED` and `FAULT` in step, the code at most 4. -/
def Obligations.StepKeepsInvariant : Prop :=
  ∀ s t : State, s.Inv → step s = .next t → t.Inv

/-- R162: every accepted command completes, and no event leaves the block without a transition, in any
state that meets the invariant. -/
def Obligations.EveryStepCompletes : Prop :=
  ∀ s : State, s.Inv → ∃ t, step s = .next t

/-- 10_state.md sections 5 and 6, U17 (the model keeps this state by its own choice, log 5): THE WORKING
STATE IS UNOBSERVABLE: two states that differ only in operand latches,
carry cell and Booth registers stay so at every step, so nothing the host reads depends on them. -/
def Obligations.WorkingStateUnobservable : Prop :=
  ∀ s t : State, EqButWork s t →
    AnswersEqButWork (step s) (step t) ∧ hostView s = hostView t

/-- R36: the state after a sequence of events is the left-to-right composition of their transitions. -/
def Obligations.RunsCompose : Prop :=
  ∀ (es fs : List HostEvent) (s : State),
    runEvents (es ++ fs) s =
      match runEvents es s with
      | .next t => runEvents fs t
      | .fault f => .fault f
      | .refused f => .refused f

/-! ## Hazards of meaning (70_reset_and_hazards.md) -/

/-- R156: index 0 of every result, row by row. -/
def Obligations.LeadingZeroTable : Prop :=
  (∀ v : Bits, 1 ≤ v.length → bitAt (asr v) 0 = bitAt v 0) ∧
  (∀ (v : Bits) (n : Nat), bitAt (pad v n) 0 = (decide (n = 0) && bitAt v 0)) ∧
  (∀ a b : Bits, 1 ≤ a.length → 1 ≤ b.length →
    (bitAt (andVec a b) 0 = if b.length < a.length then false
      else (bitAt a 0 && bitAt b (b.length - a.length))) ∧
    (bitAt (orVec a b) 0 = if b.length < a.length then bitAt a 0
      else (bitAt a 0 || bitAt b (b.length - a.length))) ∧
    (bitAt (xorVec a b) 0 = if b.length < a.length then bitAt a 0
      else xor (bitAt a 0) (bitAt b (b.length - a.length))) ∧
    bitAt (add a b) 0 = (ripple a b).2 ∧
    (bitAt (equalize a b).1 0 = false → bitAt (equalize a b).2.1 0 = false →
      bitAt (add a b) 0 = false) ∧
    bitAt (addnc a b) 0 = lsb (ripple a b).1 (max a.length b.length - 1) ∧
    (bitAt (equalize a b).1 0 = false → bitAt (sub a b) 0 = false) ∧
    bitAt (mul a b) 0 = false) ∧
  (∀ v : Bits, 1 ≤ v.length → bitAt v 0 = false → (bitAt (neg v) 0 = true ↔ val v ≠ 0)) ∧
  bitAt (orVec (fromNat 1) (fromNat 3)) 0 = true ∧
  bitAt (xorVec (fromNat 1) (fromNat 2)) 0 = true ∧
  bitAt (addnc (fromNat 255) (fromNat 1)) 0 = true

/-- R157: `PAD #1` on the operands before a `MUL` restores the product, whatever their leading bits. -/
def Obligations.PadRepairsProduct : Prop :=
  ∀ a b : Bits, val (mul (pad a 1) (pad b 1)) = val a * val b

/-- R160: nothing but a saturating `SUB` gives a result shorter than its left operand; `ADD` adds one bit
to the longer operand, `MUL` more than doubles it. -/
def Obligations.LengthsOnlyGrow : Prop :=
  ∀ (op : BinaryOp) (rd ra rb : RegId) (s : State) (a b r : Bits), s.halted = false →
    s.reg ra = .held a → s.reg rb = .held b → CompletesWith (op.command rd ra rb) s rd r →
    (r.length < a.length → op = .sub ∧ val a < val b ∧ r = [false]) ∧
    (op = .add → r.length = max a.length b.length + 1) ∧
    (op = .mul → 2 * max a.length b.length < r.length)
end

