-- ==== Sys2Proof/Laws/State.lean ====
section
/-! SUPPORT. One lemma per field per update of the state. -/

namespace Sys2Proof.Machine

@[simp] theorem setReg_regs (s : State) (r : RegId) (v : Bits) : (s.setReg r v).regs = s.regs.set r (.held v) := rfl
@[simp] theorem setReg_dout (s : State) (r : RegId) (v : Bits) : (s.setReg r v).dout = s.dout := rfl
@[simp] theorem setReg_busy (s : State) (r : RegId) (v : Bits) : (s.setReg r v).busy = s.busy := rfl
@[simp] theorem setReg_halted (s : State) (r : RegId) (v : Bits) : (s.setReg r v).halted = s.halted := rfl
@[simp] theorem setReg_fault (s : State) (r : RegId) (v : Bits) : (s.setReg r v).fault = s.fault := rfl
@[simp] theorem setReg_finfo (s : State) (r : RegId) (v : Bits) : (s.setReg r v).finfo = s.finfo := rfl
@[simp] theorem setReg_work (s : State) (r : RegId) (v : Bits) : (s.setReg r v).work = s.work := rfl
@[simp] theorem setReg_cfg (s : State) (r : RegId) (v : Bits) : (s.setReg r v).cfg = s.cfg := rfl
@[simp] theorem setReg_port (s : State) (r : RegId) (v : Bits) : (s.setReg r v).port = s.port := rfl
@[simp] theorem setReg_inputs (s : State) (r : RegId) (v : Bits) : (s.setReg r v).inputs = s.inputs := rfl

@[simp] theorem setDout_regs (s : State) (v : Bits) : (s.setDout v).regs = s.regs := rfl
@[simp] theorem setDout_dout (s : State) (v : Bits) : (s.setDout v).dout = .held v := rfl
@[simp] theorem setDout_busy (s : State) (v : Bits) : (s.setDout v).busy = s.busy := rfl
@[simp] theorem setDout_halted (s : State) (v : Bits) : (s.setDout v).halted = s.halted := rfl
@[simp] theorem setDout_fault (s : State) (v : Bits) : (s.setDout v).fault = s.fault := rfl
@[simp] theorem setDout_finfo (s : State) (v : Bits) : (s.setDout v).finfo = s.finfo := rfl
@[simp] theorem setDout_work (s : State) (v : Bits) : (s.setDout v).work = s.work := rfl
@[simp] theorem setDout_cfg (s : State) (v : Bits) : (s.setDout v).cfg = s.cfg := rfl
@[simp] theorem setDout_port (s : State) (v : Bits) : (s.setDout v).port = s.port := rfl
@[simp] theorem setDout_inputs (s : State) (v : Bits) : (s.setDout v).inputs = s.inputs := rfl

@[simp] theorem setWork_regs (s : State) (w : Working) : (s.setWork w).regs = s.regs := rfl
@[simp] theorem setWork_dout (s : State) (w : Working) : (s.setWork w).dout = s.dout := rfl
@[simp] theorem setWork_busy (s : State) (w : Working) : (s.setWork w).busy = s.busy := rfl
@[simp] theorem setWork_halted (s : State) (w : Working) : (s.setWork w).halted = s.halted := rfl
@[simp] theorem setWork_fault (s : State) (w : Working) : (s.setWork w).fault = s.fault := rfl
@[simp] theorem setWork_finfo (s : State) (w : Working) : (s.setWork w).finfo = s.finfo := rfl
@[simp] theorem setWork_work (s : State) (w : Working) : (s.setWork w).work = w := rfl
@[simp] theorem setWork_cfg (s : State) (w : Working) : (s.setWork w).cfg = s.cfg := rfl
@[simp] theorem setWork_port (s : State) (w : Working) : (s.setWork w).port = s.port := rfl
@[simp] theorem setWork_inputs (s : State) (w : Working) : (s.setWork w).inputs = s.inputs := rfl

@[simp] theorem finish_regs (s : State) : (s.finish).regs = s.regs := rfl
@[simp] theorem finish_dout (s : State) : (s.finish).dout = s.dout := rfl
@[simp] theorem finish_busy (s : State) : (s.finish).busy = false := rfl
@[simp] theorem finish_halted (s : State) : (s.finish).halted = s.halted := rfl
@[simp] theorem finish_fault (s : State) : (s.finish).fault = s.fault := rfl
@[simp] theorem finish_finfo (s : State) : (s.finish).finfo = s.finfo := rfl
@[simp] theorem finish_work (s : State) : (s.finish).work = s.work := rfl
@[simp] theorem finish_cfg (s : State) : (s.finish).cfg = s.cfg := rfl
@[simp] theorem finish_port (s : State) : (s.finish).port = s.port := rfl
@[simp] theorem finish_inputs (s : State) : (s.finish).inputs = s.inputs := rfl

@[simp] theorem faulted_regs (s : State) (f : Fault) : (s.faulted f).regs = s.regs := rfl
@[simp] theorem faulted_dout (s : State) (f : Fault) : (s.faulted f).dout = s.dout := rfl
@[simp] theorem faulted_busy (s : State) (f : Fault) : (s.faulted f).busy = false := rfl
@[simp] theorem faulted_halted (s : State) (f : Fault) : (s.faulted f).halted = true := rfl
@[simp] theorem faulted_fault (s : State) (f : Fault) : (s.faulted f).fault = faultCode f := rfl
@[simp] theorem faulted_finfo (s : State) (f : Fault) : (s.faulted f).finfo = s.port.cmd := rfl
@[simp] theorem faulted_work (s : State) (f : Fault) : (s.faulted f).work = s.work := rfl
@[simp] theorem faulted_cfg (s : State) (f : Fault) : (s.faulted f).cfg = s.cfg := rfl
@[simp] theorem faulted_port (s : State) (f : Fault) : (s.faulted f).port = s.port := rfl
@[simp] theorem faulted_inputs (s : State) (f : Fault) : (s.faulted f).inputs = s.inputs := rfl

@[simp] theorem accept_regs (s : State) (c : CmdWord) (d : Bits) (es : List HostEvent) : (s.accept c d es).regs = s.regs := rfl
@[simp] theorem accept_dout (s : State) (c : CmdWord) (d : Bits) (es : List HostEvent) : (s.accept c d es).dout = s.dout := rfl
@[simp] theorem accept_busy (s : State) (c : CmdWord) (d : Bits) (es : List HostEvent) : (s.accept c d es).busy = true := rfl
@[simp] theorem accept_halted (s : State) (c : CmdWord) (d : Bits) (es : List HostEvent) : (s.accept c d es).halted = s.halted := rfl
@[simp] theorem accept_fault (s : State) (c : CmdWord) (d : Bits) (es : List HostEvent) : (s.accept c d es).fault = s.fault := rfl
@[simp] theorem accept_finfo (s : State) (c : CmdWord) (d : Bits) (es : List HostEvent) : (s.accept c d es).finfo = s.finfo := rfl
@[simp] theorem accept_work (s : State) (c : CmdWord) (d : Bits) (es : List HostEvent) : (s.accept c d es).work = s.work := rfl
@[simp] theorem accept_cfg (s : State) (c : CmdWord) (d : Bits) (es : List HostEvent) : (s.accept c d es).cfg = s.cfg := rfl
@[simp] theorem accept_port (s : State) (c : CmdWord) (d : Bits) (es : List HostEvent) : (s.accept c d es).port = ⟨c, d⟩ := rfl
@[simp] theorem accept_inputs (s : State) (c : CmdWord) (d : Bits) (es : List HostEvent) : (s.accept c d es).inputs = es := rfl

@[simp] theorem ignore_regs (s : State) (es : List HostEvent) : (s.ignore es).regs = s.regs := rfl
@[simp] theorem ignore_dout (s : State) (es : List HostEvent) : (s.ignore es).dout = s.dout := rfl
@[simp] theorem ignore_busy (s : State) (es : List HostEvent) : (s.ignore es).busy = s.busy := rfl
@[simp] theorem ignore_halted (s : State) (es : List HostEvent) : (s.ignore es).halted = s.halted := rfl
@[simp] theorem ignore_fault (s : State) (es : List HostEvent) : (s.ignore es).fault = s.fault := rfl
@[simp] theorem ignore_finfo (s : State) (es : List HostEvent) : (s.ignore es).finfo = s.finfo := rfl
@[simp] theorem ignore_work (s : State) (es : List HostEvent) : (s.ignore es).work = s.work := rfl
@[simp] theorem ignore_cfg (s : State) (es : List HostEvent) : (s.ignore es).cfg = s.cfg := rfl
@[simp] theorem ignore_port (s : State) (es : List HostEvent) : (s.ignore es).port = s.port := rfl
@[simp] theorem ignore_inputs (s : State) (es : List HostEvent) : (s.ignore es).inputs = es := rfl

@[simp] theorem applyReset_regs (s : State) (es : List HostEvent) : (s.applyReset es).regs = State.reset.regs := rfl
@[simp] theorem applyReset_dout (s : State) (es : List HostEvent) : (s.applyReset es).dout = State.reset.dout := rfl
@[simp] theorem applyReset_busy (s : State) (es : List HostEvent) : (s.applyReset es).busy = State.reset.busy := rfl
@[simp] theorem applyReset_halted (s : State) (es : List HostEvent) : (s.applyReset es).halted = State.reset.halted := rfl
@[simp] theorem applyReset_fault (s : State) (es : List HostEvent) : (s.applyReset es).fault = State.reset.fault := rfl
@[simp] theorem applyReset_finfo (s : State) (es : List HostEvent) : (s.applyReset es).finfo = State.reset.finfo := rfl
@[simp] theorem applyReset_work (s : State) (es : List HostEvent) : (s.applyReset es).work = State.reset.work := rfl
@[simp] theorem applyReset_cfg (s : State) (es : List HostEvent) : (s.applyReset es).cfg = s.cfg := rfl
@[simp] theorem applyReset_port (s : State) (es : List HostEvent) : (s.applyReset es).port = State.reset.port := rfl
@[simp] theorem applyReset_inputs (s : State) (es : List HostEvent) : (s.applyReset es).inputs = es := rfl

theorem reg_def (s : State) (q : RegId) : s.reg q = s.regs[q] := rfl

/-- A register write is seen at that register and at no other (rule R13). -/
@[simp] theorem setReg_reg (s : State) (r q : RegId) (v : Bits) :
    (s.setReg r v).reg q = if r = q then .held v else s.reg q := by
  simp [State.reg, Vector.getElem_set, Fin.ext_iff]

@[simp] theorem setDout_reg (s : State) (v : Bits) (q : RegId) : (s.setDout v).reg q = s.reg q := rfl
@[simp] theorem setWork_reg (s : State) (w : Working) (q : RegId) : (s.setWork w).reg q = s.reg q := rfl
@[simp] theorem finish_reg (s : State) (q : RegId) : s.finish.reg q = s.reg q := rfl
@[simp] theorem faulted_reg (s : State) (f : Fault) (q : RegId) : (s.faulted f).reg q = s.reg q := rfl
@[simp] theorem accept_reg (s : State) (c : CmdWord) (d : Bits) (es : List HostEvent) (q : RegId) :
    (s.accept c d es).reg q = s.reg q := rfl
@[simp] theorem ignore_reg (s : State) (es : List HostEvent) (q : RegId) :
    (s.ignore es).reg q = s.reg q := rfl
@[simp] theorem reset_reg (q : RegId) : State.reset.reg q = .unwritten := by
  simp [State.reg, State.reset]
@[simp] theorem applyReset_reg (s : State) (es : List HostEvent) (q : RegId) :
    (s.applyReset es).reg q = .unwritten := reset_reg q

@[simp] theorem latchOne_latchX (w : Working) (v : Bits) : (w.latchOne v).latchX = v := rfl
@[simp] theorem latch_latchX (w : Working) (a b : Bits) : (w.latch a b).latchX = a := rfl
@[simp] theorem latch_latchY (w : Working) (a b : Bits) : (w.latch a b).latchY = b := rfl

end Sys2Proof.Machine
end

