-- ==== Sys2Proof/Laws/Exec.lean ====
section
/-! SUPPORT. What each shared operation can do, and what a command can do, said once. -/

namespace Sys2Proof.Machine

/-- Reading one source: the fault, or the rest of the command on the register's vector. -/
theorem withSource_cases (r : RegId) (s : State) (k : Bits → Result) :
    (s.reg r = .unwritten ∧ withSource r s k = .next (s.faulted .unwrittenRegister)) ∨
      ∃ v, s.reg r = .held v ∧ withSource r s k = k v := by
  unfold withSource
  cases h : s.reg r with
  | unwritten => exact .inl ⟨rfl, rfl⟩
  | held v => exact .inr ⟨v, rfl, rfl⟩

@[simp] theorem withSource_held (r : RegId) (s : State) (k : Bits → Result) (v : Bits)
    (h : s.reg r = .held v) : withSource r s k = k v := by simp [withSource, h]

@[simp] theorem withSource_unwritten (r : RegId) (s : State) (k : Bits → Result)
    (h : s.reg r = .unwritten) : withSource r s k = .next (s.faulted .unwrittenRegister) := by
  simp [withSource, h, takeFault]

/-- Reading two sources: the fault, or the rest of the command on both vectors. -/
theorem withSources_cases (ra rb : RegId) (s : State) (k : Bits → Bits → Result) :
    ((s.reg ra = .unwritten ∨ s.reg rb = .unwritten) ∧
        withSources ra rb s k = .next (s.faulted .unwrittenRegister)) ∨
      ∃ a b, s.reg ra = .held a ∧ s.reg rb = .held b ∧ withSources ra rb s k = k a b := by
  unfold withSources
  obtain ⟨h, e⟩ | ⟨a, ha, e⟩ := withSource_cases ra s fun a => withSource rb s fun b => k a b
  · exact .inl ⟨.inl h, e⟩
  · obtain ⟨h, e'⟩ | ⟨b, hb, e'⟩ := withSource_cases rb s fun b => k a b
    · exact .inl ⟨.inr h, e.trans e'⟩
    · exact .inr ⟨a, b, ha, hb, e.trans e'⟩

@[simp] theorem withSources_held (ra rb : RegId) (s : State) (k : Bits → Bits → Result) (a b : Bits)
    (ha : s.reg ra = .held a) (hb : s.reg rb = .held b) : withSources ra rb s k = k a b := by
  simp [withSources, ha, hb]

@[simp] theorem withSources_unwritten (ra rb : RegId) (s : State) (k : Bits → Bits → Result)
    (h : s.reg ra = .unwritten ∨ s.reg rb = .unwritten) :
    withSources ra rb s k = .next (s.faulted .unwrittenRegister) := by
  obtain ⟨_, e⟩ | ⟨a, b, ha, hb, _⟩ := withSources_cases ra rb s k
  · exact e
  · rw [ha, hb] at h; simp at h

@[simp] theorem fits_unbounded (c : Config) (n : Nat) (h : c.maxLen = none) : fits c n = true := by
  simp [fits, h]

/-- A shorter vector fits where a longer one does. -/
theorem fits_mono (c : Config) (m n : Nat) (h : m ≤ n) (hn : fits c n = true) : fits c m = true := by
  unfold fits at *
  cases hk : c.maxLen with
  | none => rfl
  | some k =>
    rw [hk] at hn
    exact decide_eq_true (h.trans (of_decide_eq_true hn))

/-- WHAT A COMMAND CAN DO: take one fault, with nothing else changed; or write its destination register;
or, `STV` alone, write the data-out latch. -/
theorem exec_cases (i : Instr) (s : State) :
    (∃ f, exec i s = .next (s.faulted f)) ∨
    (∃ rd v w, destination i = some rd ∧ exec i s = .next ((s.setReg rd v).setWork w).finish) ∨
    (∃ ra v w, i = .stv ra ∧ s.reg ra = .held v ∧
      exec i s = .next ((s.setDout v).setWork w).finish) := by
  cases i with
  | ldv rd =>
    simp only [exec, execLdv]
    split
    · exact .inl ⟨_, rfl⟩
    · split
      · exact .inr (.inl ⟨rd, _, _, rfl, rfl⟩)
      · exact .inl ⟨_, rfl⟩
  | stv ra =>
    simp only [exec, execStv]
    obtain ⟨_, e⟩ | ⟨v, hv, e⟩ := withSource_cases ra s _ <;> rw [e]
    · exact .inl ⟨_, rfl⟩
    · exact .inr (.inr ⟨ra, v, _, rfl, hv, rfl⟩)
  | pad rd n =>
    simp only [exec, execPad]
    obtain ⟨_, e⟩ | ⟨v, _, e⟩ := withSource_cases rd s _ <;> rw [e]
    · exact .inl ⟨_, rfl⟩
    · split
      · exact .inr (.inl ⟨rd, _, _, rfl, rfl⟩)
      · exact .inl ⟨_, rfl⟩
  | mov rd ra | neg rd ra | asr rd ra =>
    simp only [exec, execMov, execNeg, execAsr]
    obtain ⟨_, e⟩ | ⟨v, _, e⟩ := withSource_cases ra s _ <;> rw [e]
    · exact .inl ⟨_, rfl⟩
    · exact .inr (.inl ⟨rd, _, _, rfl, rfl⟩)
  | add rd ra rb | mul rd ra rb =>
    simp only [exec, execAdd, execMul]
    obtain ⟨_, e⟩ | ⟨a, b, _, _, e⟩ := withSources_cases ra rb s _ <;> rw [e]
    · exact .inl ⟨_, rfl⟩
    · split
      · exact .inr (.inl ⟨rd, _, _, rfl, rfl⟩)
      · exact .inl ⟨_, rfl⟩
  | and rd ra rb | or rd ra rb | xor rd ra rb | addnc rd ra rb | sub rd ra rb =>
    simp only [exec, execAnd, execOr, execXor, execAddnc, execSub]
    obtain ⟨_, e⟩ | ⟨a, b, _, _, e⟩ := withSources_cases ra rb s _ <;> rw [e]
    · exact .inl ⟨_, rfl⟩
    · exact .inr (.inl ⟨rd, _, _, rfl, rfl⟩)

/-- WHAT A STEP CAN DO: wait, reset, ignore a command while halted, refuse one while busy, or accept a
command, which is illegal or is executed. -/
theorem step_cases (s : State) :
    (s.inputs = [] ∧ step s = .next s) ∨
    (∃ rest, s.inputs = .reset :: rest ∧ step s = .next (s.applyReset rest)) ∨
    (∃ cmd din rest, s.inputs = .command cmd din :: rest ∧
      ((s.halted = true ∧ step s = .next (s.ignore rest)) ∨
       (s.halted = false ∧ s.busy = true ∧ step s = .refused .commandWhileBusy) ∨
       (s.halted = false ∧ s.busy = false ∧ (∃ e, decode cmd = .error e) ∧
          step s = .next ((s.accept cmd din rest).faulted .illegalCommand)) ∨
       (s.halted = false ∧ s.busy = false ∧
          ∃ i, decode cmd = .ok i ∧ step s = exec i (s.accept cmd din rest)))) := by
  unfold step fetch
  cases hi : s.inputs with
  | nil => simp
  | cons e rest =>
    cases e with
    | reset => simp
    | command cmd din =>
      refine .inr (.inr ⟨cmd, din, rest, rfl, ?_⟩)
      unfold present issue
      cases hh : s.halted with
      | true => simp
      | false =>
        cases hb : s.busy with
        | true => simp
        | false => cases hd : decode cmd <;> simp [hd, takeFault]

end Sys2Proof.Machine
end

