-- ==== Sys2Proof/Laws/PerInstr.lean ====
section
/-! SUPPORT. Statements about every command as syntax, one lemma per constructor. -/

namespace Sys2Proof.Laws

/-- A word of four fields under a mask of four fields: the fields are masked one by one. -/
theorem wordOf_and (a b c d a' b' c' d' : BitVec 4) :
    wordOf a b c d &&& wordOf a' b' c' d' = wordOf (a &&& a') (b &&& b') (c &&& c') (d &&& d') := by
  have h : ((a ++ b ++ c ++ d) &&& (a' ++ b' ++ c' ++ d') : BitVec (4 + 4 + 4 + 4)) =
      (a &&& a') ++ (b &&& b') ++ (c &&& c') ++ (d &&& d') := by simp only [BitVec.and_append]
  exact h

/-- `PAD`'s word under the opcode mask. -/
theorem padWord_and (b : BitVec 4) (n : BitVec 8) :
    ((0x4#4 ++ b ++ n : BitVec 16) &&& 0xF000#16) = 0x4000#16 := by
  have h : (0xF000#16) = (0xF#4 ++ 0#4 ++ 0#8 : BitVec 16) := by decide
  rw [h, BitVec.and_append, BitVec.and_append]
  simp

theorem mask_RRR : (0xF000 : CmdWord) = wordOf 0xF 0 0 0 := by decide
theorem mask_RR : (0xF00F : CmdWord) = wordOf 0xF 0 0 0xF := by decide
theorem mask_RD : (0xF0FF : CmdWord) = wordOf 0xF 0 0xF 0xF := by decide
theorem mask_RS : (0xFF0F : CmdWord) = wordOf 0xF 0xF 0 0xF := by decide

end Sys2Proof.Laws

namespace Sys2Proof.Laws.EncodesInRow

/-- The command's word stands in the command's row of the opcode map (rules R41, R43): its opcode and its
must-be-zero fields are as the row's mask and match say. -/
def Statement (i : Instr) : Prop := i.row.admits (encode i) = true

theorem ldv (rd : RegId) : Statement (.ldv rd) := by
  simp only [Statement, Instr.row, OpcodeRow.admits, encode, mask_RD, wordOf_and]; simp [wordOf]
theorem stv (ra : RegId) : Statement (.stv ra) := by
  simp only [Statement, Instr.row, OpcodeRow.admits, encode, mask_RS, wordOf_and]; simp [wordOf]
theorem mov (rd ra : RegId) : Statement (.mov rd ra) := by
  simp only [Statement, Instr.row, OpcodeRow.admits, encode, mask_RR, wordOf_and]; simp [wordOf]
theorem pad (rd : RegId) (n : Nat) : Statement (.pad rd n) := by
  simp only [Statement, Instr.row, OpcodeRow.admits, encode]
  exact beq_iff_eq.mpr (padWord_and (regBits rd) (BitVec.ofNat 8 n))
theorem and (rd ra rb : RegId) : Statement (.and rd ra rb) := by
  simp only [Statement, Instr.row, OpcodeRow.admits, encode, mask_RRR, wordOf_and]; simp [wordOf]
theorem or (rd ra rb : RegId) : Statement (.or rd ra rb) := by
  simp only [Statement, Instr.row, OpcodeRow.admits, encode, mask_RRR, wordOf_and]; simp [wordOf]
theorem xor (rd ra rb : RegId) : Statement (.xor rd ra rb) := by
  simp only [Statement, Instr.row, OpcodeRow.admits, encode, mask_RRR, wordOf_and]; simp [wordOf]
theorem add (rd ra rb : RegId) : Statement (.add rd ra rb) := by
  simp only [Statement, Instr.row, OpcodeRow.admits, encode, mask_RRR, wordOf_and]; simp [wordOf]
theorem addnc (rd ra rb : RegId) : Statement (.addnc rd ra rb) := by
  simp only [Statement, Instr.row, OpcodeRow.admits, encode, mask_RRR, wordOf_and]; simp [wordOf]
theorem neg (rd ra : RegId) : Statement (.neg rd ra) := by
  simp only [Statement, Instr.row, OpcodeRow.admits, encode, mask_RR, wordOf_and]; simp [wordOf]
theorem sub (rd ra rb : RegId) : Statement (.sub rd ra rb) := by
  simp only [Statement, Instr.row, OpcodeRow.admits, encode, mask_RRR, wordOf_and]; simp [wordOf]
theorem mul (rd ra rb : RegId) : Statement (.mul rd ra rb) := by
  simp only [Statement, Instr.row, OpcodeRow.admits, encode, mask_RRR, wordOf_and]; simp [wordOf]
theorem asr (rd ra : RegId) : Statement (.asr rd ra) := by
  simp only [Statement, Instr.row, OpcodeRow.admits, encode, mask_RR, wordOf_and]; simp [wordOf]

end Sys2Proof.Laws.EncodesInRow
end

