-- ==== Sys2Proof/Laws/Vectors.lean ====
section
/-! SUPPORT. The small lemmas of the bit-vector functions: lengths, values of the basic forms, and what each
unit's recursion does at a constructor. -/

namespace Sys2Proof.Machine

/-! ### Values and basic forms -/

@[simp] theorem val_nil : val [] = 0 := rfl

@[simp] theorem val_cons (b : Bool) (v : Bits) : val (b :: v) = b.toNat * 2 ^ v.length + val v := rfl

@[simp] theorem length_zeros (n : Nat) : (zeros n).length = n := by simp [zeros]

@[simp] theorem zeros_zero : zeros 0 = [] := rfl

@[simp] theorem zeros_succ (n : Nat) : zeros (n + 1) = false :: zeros n := rfl

@[simp] theorem val_zeros (n : Nat) : val (zeros n) = 0 := by
  induction n with
  | zero => rfl
  | succ n ih => simp [ih]

/-- Concatenation weighs its left part by the length of its right part. -/
theorem val_append (a b : Bits) : val (a ++ b) = val a * 2 ^ b.length + val b := by
  induction a with
  | nil => simp
  | cons x a ih => simp [ih, pow_add]; ring

/-- A vector's value is below `2^len`. -/
theorem val_lt (v : Bits) : val v < 2 ^ v.length := by
  induction v with
  | nil => simp
  | cons b v ih => cases b <;> simp [pow_succ] <;> omega

@[simp] theorem length_one (n : Nat) : (one n).length = n := by cases n <;> simp [one]

@[simp] theorem length_flip (v : Bits) : (flip v).length = v.length := by simp [flip]

@[simp] theorem flip_nil : flip [] = [] := rfl

@[simp] theorem flip_cons (b : Bool) (v : Bits) : flip (b :: v) = (!b) :: flip v := rfl

@[simp] theorem bitAt_zero_cons (b : Bool) (v : Bits) : bitAt (b :: v) 0 = b := rfl

/-- Inside the vector, `lsb` is the bit `v.bits[v.len - 1 - k]` (00_scope.md section 4.1). -/
theorem lsb_eq_bitAt (v : Bits) (k : Nat) (h : k < v.length) : lsb v k = bitAt v (v.length - 1 - k) := by
  simp [lsb, bitAt, List.getD, List.getElem?_reverse h]

/-- Beyond the vector, `lsb` is 0. -/
theorem lsb_of_le (v : Bits) (k : Nat) (h : v.length ≤ k) : lsb v k = false := by
  simp [lsb, List.getD, List.getElem?_eq_none (by simpa using h : v.reverse.length ≤ k)]

/-! ### Padding and alignment -/

@[simp] theorem length_pad (v : Bits) (n : Nat) : (pad v n).length = n + v.length := by simp [pad]

theorem pad_zero (v : Bits) : pad v 0 = v := rfl

@[simp] theorem equalize_width (a b : Bits) : (equalize a b).2.2 = width a b := rfl

@[simp] theorem length_equalize_left (a b : Bits) : (equalize a b).1.length = width a b := by
  simp [equalize, width]

@[simp] theorem length_equalize_right (a b : Bits) : (equalize a b).2.1.length = width a b := by
  simp [equalize, width]

/-- Two vectors of one length pass `equalize` unchanged. -/
theorem equalize_same (a b : Bits) (h : a.length = b.length) : equalize a b = (a, b, a.length) := by
  simp [equalize, width, pad, h]

/-! ### The bitwise engine -/

@[simp] theorem length_bw (f : Bool → Bool → Bool) (a b : Bits) : (bw f a b).length = a.length := by
  simp [bw]; omega

@[simp] theorem length_andVec (a b : Bits) : (andVec a b).length = a.length := by
  simp [andVec]

@[simp] theorem length_orVec (a b : Bits) : (orVec a b).length = a.length := by simp [orVec]

@[simp] theorem length_xorVec (a b : Bits) : (xorVec a b).length = a.length := by simp [xorVec]

/-! ### The adder -/

@[simp] theorem rippleChain_cons (x y : Bool) (a b : Bits) (c : Bool) :
    rippleChain (x :: a) (y :: b) c =
      (cellSum x y (rippleChain a b c).2 :: (rippleChain a b c).1, maj x y (rippleChain a b c).2) := rfl

@[simp] theorem rippleChain_nil (c : Bool) : rippleChain [] [] c = ([], c) := rfl

/-- The chain has as many sum bits as the shorter operand; `ripple` gives it two of one length. -/
theorem length_rippleChain (a b : Bits) (c : Bool) :
    (rippleChain a b c).1.length = min a.length b.length := by
  induction a generalizing b with
  | nil => simp [rippleChain]
  | cons x a ih =>
    cases b with
    | nil => simp [rippleChain]
    | cons y b => simp [ih]

@[simp] theorem length_ripple (a b : Bits) : (ripple a b).1.length = width a b := by
  simp [ripple, length_rippleChain]

@[simp] theorem length_add (a b : Bits) : (add a b).length = width a b + 1 := by simp [add]

@[simp] theorem length_addnc (a b : Bits) : (addnc a b).length = width a b := by simp [addnc]

/-! ### The negator and the subtractor -/

@[simp] theorem length_neg (v : Bits) : (neg v).length = v.length := by simp [neg, negPass, width]

@[simp] theorem length_subPass (a b : Bits) : (subPass a b).1.length = width a b := by
  rw [subPass, length_ripple, width, length_equalize_left, length_neg, length_equalize_right,
    Nat.max_self]

/-- The only shortening of the block (rule R160). -/
theorem length_sub (a b : Bits) : (sub a b).length = if lt a b then 1 else width a b := by
  unfold sub; split <;> simp

@[simp] theorem ltChain_cons (x y : Bool) (a b : Bits) :
    ltChain (x :: a) (y :: b) = if x != y then !x else ltChain a b := rfl

@[simp] theorem ltChain_nil (b : Bits) : ltChain [] b = false := rfl

/-! ### The shifter and the multiplier -/

@[simp] theorem length_asr (p : Bits) : (asr p).length = p.length := by cases p <;> simp [asr]

/-- The latches, the operand registers and the width are the same after every cycle; only `P`, the
carry cell and the cycle counter move (rules R109, R111). -/
theorem boothCycle_fixed (w : Working) :
    (boothCycle w).n = w.n ∧ (boothCycle w).regA = w.regA ∧ (boothCycle w).regS = w.regS ∧
      (boothCycle w).latchX = w.latchX ∧ (boothCycle w).latchY = w.latchY ∧
      (boothCycle w).cyc = w.cyc + 1 := by
  unfold boothCycle boothAct
  split <;> simp

/-- The accumulator control holds exactly when the two bits agree (rule R110). -/
theorem boothSelect_eq_hold (s2 l : Bool) : boothSelect s2 l = .hold ↔ s2 = l := by
  cases s2 <;> cases l <;> simp [boothSelect]

/-- What a cycle can do to `P` (rules R110, R111). -/
theorem boothCycle_regP (w : Working) :
    (boothCycle w).regP = asr w.regP ∨ (boothCycle w).regP = asr (addnc w.regP w.regA) ∨
      (boothCycle w).regP = asr (addnc w.regP w.regS) := by
  unfold boothCycle boothAct
  split <;> simp

/-- The multiplication depends on the working state through the operand latches alone: every other
field is written before it is read (rule R18, U17). -/
theorem multiply_latch (w : Working) (m r : Bits) :
    multiply (w.latch m r) = multiply (Working.cleared.latch m r) := rfl

/-- `MUL`'s result is `mul` of its operands, whatever the working state held. -/
theorem boothResult_multiply (w : Working) (m r : Bits) :
    boothResult (multiply (w.latch m r)) = mul m r := rfl

end Sys2Proof.Machine
end

