-- ==== Sys2Proof/Tests/Slice0.lean ====
section
/-! SUPPORT. Small tests of the model on the spec's own examples (30_encoding.md section 5, 95_test_vectors.md),
and a witness for the hypotheses of each statement. Every expected value is written from the spec. -/

namespace Sys2Proof.Tests

open Sys2Proof Sys2Proof.Machine

/-! ## Helpers -/

/-- A vector literal, most-significant bit first: `"0101"` of the spec is `b01 [0,1,0,1]`. -/
def b01 (l : List Nat) : Bits := l.map (· == 1)

/-- The next state of an answer. -/
def nextOf : Result → Option State
  | .next t => some t
  | _ => none

/-- The reset state with vectors `a`, `b` in `V0`, `V1`, and `d` on `DIN`. -/
def two (a b d : Bits) : State :=
  { State.reset with
    regs := (State.reset.regs.set 0 (.held a)).set 1 (.held b)
    port := ⟨0, d⟩ }

/-- The start state of 95_test_vectors.md section 2.10: reset, then `V0 = "0101"`. -/
def one0101 : State := { State.reset with regs := State.reset.regs.set 0 (.held (b01 [0,1,0,1])) }

/-- What register `r` holds after the command. -/
def result (i : Instr) (s : State) (r : RegId) : Option Slot := (nextOf (exec i s)).map (·.reg r)

/-- `FAULT`, `FINFO`, `HALTED` after one step with the word presented. -/
def status (s : State) (cmd : CmdWord) : Option (Nat × CmdWord × Bool) :=
  (nextOf (step (s.presentWord cmd))).map fun t => (t.fault.toNat, t.finfo, t.halted)

/-! ## Well-formedness (rules R42, R46, U22): an ill-formed term for each check -/

theorem test_wellFormed_pad_256 : Instr.wellFormed (.pad 3 256) = false := by decide
theorem test_wellFormed_pad_255 : Instr.wellFormed (.pad 3 255) = true := by decide
theorem test_illegal_words :
    [0x0000, 0x0FFF, 0xE000, 0xF123, 0xFFFF, 0x1001, 0x2120, 0x2021, 0x3421, 0xA111, 0xD541].all
      (fun w : CmdWord => !wordLegal w) = true := by decide
theorem test_legal_words :
    [0x1F00, 0x2020, 0x3420, 0x43FF, 0x5201, 0x6201, 0x7111, 0x8201, 0x9FFF, 0xA110, 0xB201, 0xC001,
      0xD540].all (fun w : CmdWord => wordLegal w) = true := by decide

/-! ## Decoding and encoding: every constructor by a word of the spec (30.md section 5, 95.md 2.9) -/

theorem test_decode_ldv : decode 0x1F00 = .ok (.ldv 15) := by rfl
theorem test_decode_stv : decode 0x2020 = .ok (.stv 2) := by rfl
theorem test_decode_mov : decode 0x3420 = .ok (.mov 4 2) := by rfl
theorem test_decode_pad : decode 0x43FF = .ok (.pad 3 255) := by rfl
theorem test_decode_and : decode 0x5201 = .ok (.and 2 0 1) := by rfl
theorem test_decode_or : decode 0x6301 = .ok (.or 3 0 1) := by rfl
theorem test_decode_xor : decode 0x7510 = .ok (.xor 5 1 0) := by rfl
theorem test_decode_add : decode 0x8441 = .ok (.add 4 4 1) := by rfl
theorem test_decode_addnc : decode 0x9302 = .ok (.addnc 3 0 2) := by rfl
theorem test_decode_neg : decode 0xA530 = .ok (.neg 5 3) := by rfl
theorem test_decode_sub : decode 0xB320 = .ok (.sub 3 2 0) := by rfl
theorem test_decode_mul : decode 0xC223 = .ok (.mul 2 2 3) := by rfl
theorem test_decode_asr : decode 0xD540 = .ok (.asr 5 4) := by rfl
theorem test_decode_illegal : decode 0x3121 = .error .mustBeZero ∧ decode 0xE000 = .error .reservedOpcode :=
  ⟨rfl, rfl⟩
theorem test_encode_pad : encode (.pad 3 5) = 0x4305 := by decide
theorem test_encode_stv : encode (.stv 2) = 0x2020 := by decide
theorem test_encode_sub : encode (.sub 2 0 1) = 0xB201 := by decide
theorem test_decodeTableWord : decodeTableWord 16 0x8201 = some (.add 2 0 1) := by rfl

/-! ## The commands on the spec's examples (40.md to 46.md, 95.md sections 1 and 2) -/

theorem test_ldv : result (.ldv 0) (two [] [] (b01 [0,1,0,1])) 0 = some (.held (b01 [0,1,0,1])) := by
  decide
theorem test_ldv_no_leading_zero : result (.ldv 0) (two [] [] [true]) 0 = some (.held [true]) := by
  decide
theorem test_stv : (nextOf (exec (.stv 0) (two (b01 [0,1,1,1]) [] []))).map (·.dout) =
    some (.held (b01 [0,1,1,1])) := by decide
theorem test_mov : result (.mov 4 0) (two (b01 [0,1,1,1]) [] []) 4 = some (.held (b01 [0,1,1,1])) := by
  decide
theorem test_pad : result (.pad 0 2) (two (b01 [1,0,1]) [] []) 0 = some (.held (b01 [0,0,1,0,1])) := by
  decide
theorem test_and_clears : result (.and 2 0 1) (two (b01 [1,1,0,1,0,1]) (b01 [1,1]) []) 2 =
    some (.held (b01 [0,0,0,0,0,1])) := by decide
theorem test_or_right_longer : result (.or 2 0 1) (two (b01 [0,1]) (b01 [0,1,0,0,0]) []) 2 =
    some (.held (b01 [0,1])) := by decide
theorem test_or_left_longer : result (.or 2 0 1) (two (b01 [0,1,0,0,0]) (b01 [0,1]) []) 2 =
    some (.held (b01 [0,1,0,0,1])) := by decide
theorem test_xor : result (.xor 1 1 0) (two (b01 [0,1,0,1]) (b01 [0,1,1]) []) 1 =
    some (.held (b01 [1,1,0])) := by decide
theorem test_add_255_1 : result (.add 2 0 1) (two (b01 [0,1,1,1,1,1,1,1,1]) (b01 [0,1]) []) 2 =
    some (.held (b01 [0,1,0,0,0,0,0,0,0,0])) := by decide
theorem test_add_carry_out : result (.add 0 0 1) (two [true] [true] []) 0 =
    some (.held (b01 [1,0])) := by decide
theorem test_addnc_wraps : result (.addnc 2 0 1) (two (b01 [1,1,1,1]) [true] []) 2 =
    some (.held (b01 [0,0,0,0])) := by decide
theorem test_neg : result (.neg 2 1) (two [] (b01 [0,1,1,0]) []) 2 = some (.held (b01 [1,0,1,0])) := by
  decide
theorem test_neg_length_one : result (.neg 0 0) (two [true] [] []) 0 = some (.held [true]) := by decide
theorem test_sub_floor : result (.sub 2 0 1) (two (b01 [0,1,1]) (b01 [0,1,0,1]) []) 2 =
    some (.held [false]) := by decide
theorem test_sub : result (.sub 2 0 1) (two (b01 [0,1,0,1]) (b01 [0,1,1]) []) 2 =
    some (.held (b01 [0,0,1,0])) := by decide
theorem test_mul_6_7 : result (.mul 0 0 1) (two (b01 [0,1,1,0]) (b01 [0,1,1,1]) []) 0 =
    some (.held (b01 [0,0,0,1,0,1,0,1,0])) := by decide
theorem test_mul_lost_leading_zero : result (.mul 2 0 1) (two (b01 [1,0,0]) (b01 [0,1,1]) []) 2 =
    some (.held (b01 [0,0,0,1,1,0,0])) := by decide
theorem test_asr : result (.asr 5 0) (two (b01 [1,0,1,0]) [] []) 5 = some (.held (b01 [1,1,0,1])) := by
  decide

/-- T-MUL-1, cycle 1: the pair is 1, 0, `S` is added, the sign bit is replicated. -/
theorem test_booth_first_cycle :
    (boothCycle (boothInit (Working.cleared.latch (b01 [0,1,1,0]) (b01 [0,1,1,1])))).regP =
      b01 [1,1,0,1,0,0,1,1,1] := by decide

/-- T-MUL-1: `+S`, none, none, `+A`. -/
theorem test_booth_additions :
    boothAdditions 4 (boothInit (Working.cleared.latch (b01 [0,1,1,0]) (b01 [0,1,1,1]))) = 2 := by decide

theorem test_fromNat : [0, 1, 5, 8, 256].map fromNat =
    [b01 [0,0], b01 [0,1], b01 [0,1,0,1], b01 [0,1,0,0,0], b01 [0,1,0,0,0,0,0,0,0,0]] := by decide
theorem test_toNat : toNat (b01 [0,0,0,0,0,0,0,0,0,1,0,0,1,0,1,1,0,0,0]) = 600 := by decide
theorem test_display : (display (b01 [0,1,0,1])).drop 2 = ['0', '1', '0', '1'] := by decide
theorem test_asm : asmLine (.pad 3 5) = ⟨"PAD", [.reg 3, .count 5]⟩ := by decide
theorem test_asm_text : asmText (asmLine (.pad 3 5)) = "PAD V3, #5" := by decide
theorem test_pseudo : expand (.binaryI .add 4 1) = .add 4 4 1 := by decide

/-! ## Faults (95.md section 2.10), one step from `V0 = "0101"` -/

theorem test_fault_rb : status one0101 0x8201 = some (2, 0x8201, true) := by decide
theorem test_fault_ra : status one0101 0x8210 = some (2, 0x8210, true) := by decide
theorem test_no_fault_unwritten_rd : status one0101 0x8200 = some (0, 0, false) := by decide
theorem test_fault_stv : status one0101 0x2010 = some (2, 0x2010, true) := by decide
theorem test_fault_pad : status one0101 0x4101 = some (2, 0x4101, true) := by decide
theorem test_illegal_first : status one0101 0x3121 = some (1, 0x3121, true) := by decide
theorem test_illegal_zero : status one0101 0x0000 = some (1, 0x0000, true) := by decide
theorem test_ldv_empty : status one0101 0x1100 = some (3, 0x1100, true) := by decide
theorem test_overflow_add : status { one0101 with cfg := ⟨some 4⟩ } 0x8200 = some (4, 0x8200, true) := by
  decide
theorem test_overflow_mul : status { one0101 with cfg := ⟨some 4⟩ } 0xC200 = some (4, 0xC200, true) := by
  decide
theorem test_ldv_too_long :
    status { one0101 with cfg := ⟨some 4⟩, port := ⟨0, b01 [0,1,0,0,0]⟩ } 0x1100 =
      some (3, 0x1100, true) := by decide
theorem test_fault_writes_nothing :
    (nextOf (step (one0101.presentWord 0x8201))).map (fun t => (t.reg 2, t.reg 0, t.dout)) =
      some (.unwritten, .held (b01 [0,1,0,1]), .unwritten) := by decide
theorem test_halted_ignores :
    (nextOf (step ({ one0101 with halted := true, fault := 2, finfo := 0x8201 }.presentWord 0x1100))).map
      (fun t => (t.fault, t.finfo, t.inputs)) = some (2, 0x8201, []) := by decide
theorem test_fetch_word_runs :
    (nextOf (step (one0101.withFetchWord 16 0x3400))).map (·.reg 4) = some (.held (b01 [0,1,0,1])) := by
  decide

/-! ## Witnesses: a concrete input that meets the hypotheses of each statement that has some -/

/-- A halted block with one fault on record and a command and a reset to come. -/
def haltedState : State :=
  { one0101 with halted := true, fault := 2, finfo := 0x8201, inputs := [.command 0x1100 [true], .reset] }

/-- An accepting block with a command to come. -/
def ready (cmd : CmdWord) (din : Bits) : State := { one0101 with inputs := [.command cmd din] }

theorem witness_DecodeOfEncode : Instr.wellFormed (.pad 15 255) = true := by decide
theorem witness_EncodeOfDecode : decode 0x9FFF = .ok (.addnc 15 15 15) := by rfl
theorem witness_DecodeTotal_illegal :
    (ready 0x1001 []).halted = false ∧ (ready 0x1001 []).busy = false ∧
      decode 0x1001 = .error .mustBeZero ∧ (ready 0x1001 []).inputs = .command 0x1001 [] :: [] :=
  ⟨rfl, rfl, rfl, rfl⟩
theorem witness_DecodeTotal_opcodes : decode 0x0FFF = .error .reservedOpcode ∧
    decode 0xE000 = .error .reservedOpcode ∧ decode 0xF123 = .error .reservedOpcode := ⟨rfl, rfl, rfl⟩
theorem witness_DecodeTotal_fields : decode 0x300F = .error .mustBeZero ∧
    decode 0xA001 = .error .mustBeZero ∧ decode 0xD008 = .error .mustBeZero ∧
    decode 0x2010 = .ok (.stv 1) ∧ decode 0x2100 = .error .mustBeZero ∧
    decode 0x2001 = .error .mustBeZero ∧ decode 0x1080 = .error .mustBeZero :=
  ⟨rfl, rfl, rfl, rfl, rfl, rfl, rfl⟩
theorem witness_OpcodeMapDecodes : (Instr.ldv 15).row ∈ opcodeMap ∧
    (Instr.ldv 15).row.admits 0x1F00 = true := by decide
theorem witness_PadCountUnsigned : (255 : Nat) ≤ 255 ∧ decode 0x4FFF = .ok (.pad 15 255) :=
  ⟨le_refl _, rfl⟩
theorem witness_FreshVectorBits : 1 ≤ 1 ∧ 1 < (fromNat 1).length := by decide
theorem witness_PaddingLaws : (1 : Nat) < 2 ∧ 2 < (b01 [1,0,1]).length ∧
    (pad (b01 [1,0,1]) 2)[1]? = some false ∧ (pad (b01 [1,0,1]) 2)[2]? = some true := by decide
theorem witness_EqualizeAligns : (b01 [0,1]).length ≤ (b01 [0,1,0,0,0]).length ∧
    4 < (equalize (b01 [0,1]) (b01 [0,1,0,0,0])).2.2 := by decide
theorem witness_EqualizeAligns_equal : (b01 [0,1]).length ≤ (b01 [1,1]).length ∧
    (b01 [1,1]).length ≤ (b01 [0,1]).length := by decide
theorem witness_BitwiseByWeight : 1 < min (b01 [0,1,0,1]).length (b01 [0,1]).length ∧
    1 < (b01 [0,1,0,1]).length - min (b01 [0,1,0,1]).length (b01 [0,1]).length := by decide
theorem witness_RippleExact : 3 < max (b01 [0,1,0,1]).length (b01 [0,1,1]).length := by decide
theorem witness_NegationLaws : 1 ≤ (b01 [0,1]).length ∧
    b01 [0,1] ≠ true :: zeros ((b01 [0,1]).length - 1) ∧ bitAt (b01 [0,1]) 0 = false ∧
    0 < val (b01 [0,1]) := by decide
theorem witness_ComparatorExact_positive : 0 < val [true] := by decide
theorem witness_ComparatorExact_zero : val [false] = 0 := by decide
theorem witness_SubtractionLaws_floor : val [false] < val [true] := by decide
theorem witness_SubtractionLaws_equal : val [false] ≤ val [false, true] ∧
    val [true] = val [false, true] ∧ val [false] = 0 ∧ bitAt (equalize [false, true] [false]).1 0 = false := by
  decide
theorem witness_ShiftLaws : 1 ≤ [true].length ∧ [true].length = 1 ∧ (1 : Nat) < [true, false].length := by
  decide
theorem witness_ProductLaw_equal : 1 ≤ (b01 [0,1]).length ∧ mulPre (b01 [0,1]) (b01 [0,1]) = true := by
  decide
theorem witness_ProductLaw_shorter : mulPre [true] (b01 [0,1,1]) = true := by decide
theorem witness_SignedProductPattern : 1 ≤ [true].length ∧ mulPre [true] [true] = false := by decide
theorem witness_ProductShape : [true].length ≤ (b01 [0,1]).length := by decide
theorem witness_AccumulatorField :
    1 ≤ (equalize (b01 [0,1]) [true]).2.2 ∧ 2 ≤ (equalize (b01 [0,1]) [true]).2.2 ∧
      (0 : Nat) < (equalize (b01 [0,1]) [true]).2.2 - 1 := by decide
theorem witness_BoothCounts :
    let t := boothInit (Working.cleared.latch (b01 [0,1,1,0]) (b01 [0,1,1,1]))
    let u := boothRun 3 t
    bitAt t.regP (2 * t.n - 1) = true ∧ bitAt t.regP (2 * t.n) = false ∧
      bitAt (boothCycle t).regP (2 * t.n - 1) = bitAt (boothCycle t).regP (2 * t.n) ∧
      bitAt u.regP (2 * u.n - 1) = false ∧ bitAt u.regP (2 * u.n) = true := by decide
theorem witness_LoadResult : 1 ≤ (two [] [] [true]).port.din.length ∧
    fits ⟨some 1⟩ (two [] [] [true]).port.din.length = true ∧
    fits (two [] [] [true]).cfg (two [] [] [true]).port.din.length = true := by decide
theorem witness_LoadResult_bad : (two [] [] []).port.din.length = 0 ∧
    fits ⟨some 1⟩ (two [] [] [true, true]).port.din.length = false := by decide
theorem witness_StoreResult : one0101.reg 0 = .held (b01 [0,1,0,1]) ∧ one0101.reg 15 = .unwritten := by
  decide
theorem witness_CloneResult : one0101.reg 0 = .held (b01 [0,1,0,1]) ∧ (0 : RegId) = 0 ∧
    one0101.reg 1 = .unwritten := by decide
theorem witness_PadResult : one0101.reg 0 = .held (b01 [0,1,0,1]) ∧
    fits one0101.cfg ((b01 [0,1,0,1]).length + 255) = true ∧
    fits ⟨some 4⟩ ((b01 [0,1,0,1]).length + 1) = false ∧
    fits ⟨some 4⟩ ((b01 [0,1,0,1]).length + 0) = true ∧ one0101.reg 1 = .unwritten := by decide
theorem witness_BitwiseResult : (two (b01 [0,1]) [true] []).reg 0 = .held (b01 [0,1]) ∧
    (two (b01 [0,1]) [true] []).reg 1 = .held [true] ∧ 1 < (b01 [0,1]).length := by decide
theorem witness_BitwiseResult_unwritten : one0101.reg 0 = .held (b01 [0,1,0,1]) ∧
    one0101.reg 1 = .unwritten := by decide
theorem witness_AddResult : (two [true] [true] []).reg 0 = .held [true] ∧
    (two [true] [true] []).reg 1 = .held [true] ∧ fits ⟨some 2⟩ (1 + 1) = true ∧
    fits ⟨some 1⟩ (1 + 1) = false ∧ fits (two [true] [true] []).cfg (1 + 1) = true := by decide
theorem witness_AddncResult : (two (b01 [1,1,1,1]) [true] []).reg 0 = .held (b01 [1,1,1,1]) ∧
    (two (b01 [1,1,1,1]) [true] []).reg 1 = .held [true] := by decide
theorem witness_NegResult : (two [true] [] []).reg 0 = .held [true] := by decide
theorem witness_SubResult : (two (b01 [0,1]) [true] []).reg 0 = .held (b01 [0,1]) ∧
    (two (b01 [0,1]) [true] []).reg 1 = .held [true] ∧ val [true] ≤ val (b01 [0,1]) ∧
    val [false] < val [true] := by decide
theorem witness_MulResult : (two (b01 [0,1]) (b01 [0,1]) []).reg 0 = .held (b01 [0,1]) ∧
    (two (b01 [0,1]) (b01 [0,1]) []).reg 1 = .held (b01 [0,1]) ∧ fits ⟨some 5⟩ (2 * 2 + 1) = true ∧
    fits ⟨some 4⟩ (2 * 2 + 1) = false ∧ mulPre (b01 [0,1]) (b01 [0,1]) = true := by decide
theorem witness_ShiftResult : (two (b01 [0,1]) [true] []).reg 0 = .held (b01 [0,1]) ∧
    bitAt (b01 [0,1]) 0 = false ∧ (two (b01 [0,1]) [true] []).reg 1 = .held [true] ∧
    [true].length = 1 := by decide
theorem witness_InPlaceMatchesPure :
    (two [true] [true] []).halted = false ∧
      CompletesWith (BinaryOp.command .add 0 0 1) (two [true] [true] []) 0 (b01 [1,0]) :=
  ⟨rfl, _, rfl⟩
theorem witness_AliasedOperands : one0101.reg 0 = .held (b01 [0,1,0,1]) := by decide
theorem witness_UnwrittenSourceFaults : ∃ r ∈ sources (.add 2 0 1), one0101.reg r = .unwritten := by decide
theorem witness_UnwrittenSourceFaults_written : one0101.halted = false ∧
    (∀ r ∈ sources (.ldv 1), one0101.reg r ≠ .unwritten) ∧
    (nextOf (exec (.ldv 1) one0101)).map (·.halted) = some true := by decide
theorem witness_FaultPriority : faultOf (.add 2 0 1) one0101 = some .unwrittenRegister ∧
    faultOf (.add 2 0 0) { one0101 with cfg := ⟨some 4⟩ } = some .lengthOverflow ∧
    faultOf (.ldv 2) one0101 = some .badLength ∧ faultOf (.add 2 0 0) one0101 = none := by decide
theorem witness_FaultPriority_illegal : (ready 0x3121 []).halted = false ∧ (ready 0x3121 []).busy = false ∧
    (ready 0x3121 []).inputs = .command 0x3121 [] :: [] ∧ wordLegal 0x3121 = false := by decide
theorem witness_FaultIsPrecise : (ready 0x8201 []).halted = false ∧
    (nextOf (step (ready 0x8201 []))).map (·.halted) = some true := by decide
theorem witness_OverflowExactly : one0101.halted = false ∧
    (∀ r ∈ sources (.add 2 0 0), one0101.reg r ≠ .unwritten) ∧
    (nextOf (exec (.add 2 0 0) { one0101 with cfg := ⟨some 4⟩ })).map (fun t => (t.halted, t.fault)) =
      some (true, 4) ∧
    (nextOf (exec (.add 2 0 0) { one0101 with cfg := ⟨some 5⟩ })).map (·.halted) = some false := by decide
theorem witness_OverflowExactly_others : destination (.addnc 2 0 0) = some 2 ∧
    (nextOf (exec (.addnc 2 0 0) { one0101 with cfg := ⟨some 4⟩ })).map (·.halted) = some false := by
  decide
theorem witness_HaltedIgnoresCommands : haltedState.halted = true := by decide
theorem witness_OnlyResetClearsHalted :
    ({ haltedState with inputs := [.reset] } : State).halted = true ∧
      (nextOf (step { haltedState with inputs := [.reset] })).map (·.halted) = some false ∧
      (nextOf (step haltedState)).map (·.halted) = some true := by decide
theorem witness_ResetFromAnywhere :
    ({ haltedState with busy := true, inputs := [.reset] } : State).inputs = .reset :: [] := by decide
theorem witness_StepRunsDecoded : (ready 0x8200 []).halted = false ∧ (ready 0x8200 []).busy = false ∧
    (ready 0x8200 []).inputs = .command 0x8200 [] :: [] ∧ decode 0x8200 = .ok (.add 2 0 0) :=
  ⟨rfl, rfl, rfl, rfl⟩
theorem witness_WaitsForCommand : State.reset.inputs = [] := by decide
theorem witness_CommandFrame : ∃ t, exec (.add 2 0 0) one0101 = .next t := ⟨_, rfl⟩
theorem witness_CapacityConstant : ∃ t, step { haltedState with cfg := ⟨some 4⟩ } = .next t := ⟨_, rfl⟩
theorem witness_StepKeepsInvariant :
    State.Inv { ready 0x8200 [] with cfg := ⟨some 5⟩ } ∧
      ∃ t, step { ready 0x8200 [] with cfg := ⟨some 5⟩ } = .next t := ⟨by decide, _, rfl⟩
theorem witness_EveryStepCompletes : State.Inv haltedState := by decide
theorem witness_WorkingStateUnobservable :
    EqButWork (ready 0xC200 []) { ready 0xC200 [] with work := Working.cleared.latch [true] [] } := by
  unfold EqButWork; rfl
theorem witness_LeadingZeroTable : 1 ≤ (b01 [0,1]).length ∧
    bitAt (equalize (b01 [0,1]) [true]).1 0 = false ∧ bitAt (equalize (b01 [0,1]) [true]).2.1 0 = false ∧
    bitAt (b01 [0,1]) 0 = false := by decide
theorem witness_LengthsOnlyGrow : (two (b01 [0,1]) (b01 [1,1]) []).halted = false ∧
    (two (b01 [0,1]) (b01 [1,1]) []).reg 0 = .held (b01 [0,1]) ∧
    (two (b01 [0,1]) (b01 [1,1]) []).reg 1 = .held (b01 [1,1]) ∧
    CompletesWith (BinaryOp.command .sub 2 0 1) (two (b01 [0,1]) (b01 [1,1]) []) 2 [false] :=
  ⟨by decide, by decide, by decide, _, rfl⟩

end Sys2Proof.Tests
end

