-- ==== Sys2Proof/Proofs/Reset.lean ====
section
/-! PROOFS. The reset state, field by field (rule R25). -/

namespace Sys2Proof.Machine

@[simp] theorem reset_dout : State.reset.dout = .unwritten := rfl
@[simp] theorem reset_busy : State.reset.busy = false := rfl
@[simp] theorem reset_halted : State.reset.halted = false := rfl
@[simp] theorem reset_fault : State.reset.fault = 0 := rfl
@[simp] theorem reset_finfo : State.reset.finfo = 0 := rfl

/-- Settles O47: each specified row of R25's table is the field lemma of that row. -/
theorem resetValues : Obligations.ResetValues :=
  ⟨reset_reg, reset_dout, reset_busy, reset_halted, reset_fault, reset_finfo⟩

end Sys2Proof.Machine
end

section
/-! PROOFS. Running the host's events in order (rule R36): a step takes the first event and looks at no
later one, so a run over two lists of events is the one run after the other. -/

namespace Sys2Proof.Machine

/-! ## Answers in sequence -/

/-- What follows an answer: `k` from the next state; a fault or a refusal stands. -/
def andThen (o : Result) (k : State → Result) : Result :=
  match o with
  | .next t => k t
  | .fault f => .fault f
  | .refused f => .refused f

@[simp] theorem andThen_next (t : State) (k : State → Result) : andThen (.next t) k = k t := rfl
@[simp] theorem andThen_fault (f : Fault) (k : State → Result) : andThen (.fault f) k = .fault f := rfl
@[simp] theorem andThen_refused (f : Refusal) (k : State → Result) :
    andThen (.refused f) k = .refused f := rfl

theorem andThen_assoc (o : Result) (k k' : State → Result) :
    andThen (andThen o k) k' = andThen o fun t => andThen (k t) k' := by
  cases o <;> rfl

/-! ## A command does not look at what the host does next -/

/-- The state with `later` as what the host does next. -/
def State.withInputs (later : List HostEvent) (s : State) : State := { s with inputs := later }

/-- Going on from `t` with `later` as what the host does next. -/
def proceedWith (later : List HostEvent) (t : State) : Result := .next (t.withInputs later)

@[simp] theorem withInputs_reg (later : List HostEvent) (s : State) (r : RegId) :
    (s.withInputs later).reg r = s.reg r := rfl

section
variable {later : List HostEvent} {s : State}

theorem withSource_withInputs {r : RegId} {k k' : Bits → Result}
    (h : ∀ v, k' v = andThen (k v) (proceedWith later)) :
    withSource r (s.withInputs later) k' = andThen (withSource r s k) (proceedWith later) := by
  unfold withSource
  rw [withInputs_reg]
  cases s.reg r with
  | unwritten => rfl
  | held v => exact h v

theorem withSources_withInputs {ra rb : RegId} {k k' : Bits → Bits → Result}
    (h : ∀ a b, k' a b = andThen (k a b) (proceedWith later)) :
    withSources ra rb (s.withInputs later) k' =
      andThen (withSources ra rb s k) (proceedWith later) :=
  withSource_withInputs fun a => withSource_withInputs (h a)

theorem ite_proceedWith {c : Prop} [Decidable c] {o o' p p' : Result}
    (ho : o' = andThen o (proceedWith later)) (hp : p' = andThen p (proceedWith later)) :
    (if c then o' else p') = andThen (if c then o else p) (proceedWith later) := by
  split
  · exact ho
  · exact hp

end

/-- A command answers the same whatever the host does next, and leaves that as it was. -/
theorem exec_withInputs (i : Instr) (later : List HostEvent) (s : State) :
    exec i (s.withInputs later) = andThen (exec i s) (proceedWith later) := by
  cases i with
  | ldv rd => exact ite_proceedWith rfl (ite_proceedWith rfl rfl)
  | pad rd n => exact withSource_withInputs fun _ => ite_proceedWith rfl rfl
  | stv ra | mov rd ra | neg rd ra | asr rd ra => exact withSource_withInputs fun _ => rfl
  | add rd ra rb | mul rd ra rb => exact withSources_withInputs fun _ _ => ite_proceedWith rfl rfl
  | and rd ra rb | or rd ra rb | xor rd ra rb | addnc rd ra rb | sub rd ra rb =>
    exact withSources_withInputs fun _ _ => rfl

/-! ## A step takes one event -/

/-- The answer a step gives to what the command port made of the next event. -/
def Fetched.answer : Fetched → Result
  | .answered o => o
  | .run i t => exec i t

theorem step_eq_answer (s : State) : step s = (fetch s).answer := rfl

theorem issue_withInputs (cmd : CmdWord) (later : List HostEvent) (s : State) :
    (issue cmd (s.withInputs later)).answer = andThen (issue cmd s).answer (proceedWith later) := by
  unfold issue
  cases decode cmd with
  | error _ => rfl
  | ok i => exact exec_withInputs i later s

theorem present_later (cmd : CmdWord) (din : Bits) (later : List HostEvent) (s : State) :
    (present cmd din later s).answer =
      andThen (present cmd din [] s).answer (proceedWith later) := by
  unfold present
  cases s.halted with
  | true => rfl
  | false =>
    cases s.busy with
    | true => rfl
    | false => exact issue_withInputs cmd later (s.accept cmd din [])

/-- A step takes the first event and does not look at the later ones. -/
theorem step_withInputs_cons (e : HostEvent) (later : List HostEvent) (s : State) :
    step (s.withInputs (e :: later)) =
      andThen (step (s.withInputs [e])) (proceedWith later) := by
  rw [step_eq_answer, step_eq_answer]
  cases e with
  | reset => rfl
  | command cmd din => exact present_later cmd din later s

/-! ## Runs -/

/-- The host's run, in the terms of `step` and `andThen`. -/
theorem coreRun_succ (k : Nat) (s : State) :
    (core.run (k + 1) s : Result) = andThen (step s) (core.run k) := by
  cases h : step s with
  | next t | fault f | refused f =>
    have h' : core.step s = _ := h
    simp only [Host.Core.run, h']; rfl

/-- A run is the step of its first event, then the run of the others. -/
theorem runEvents_cons (e : HostEvent) (es : List HostEvent) (s : State) :
    runEvents (e :: es) s = andThen (step (s.withInputs [e])) (runEvents es) := by
  calc runEvents (e :: es) s
      = andThen (step (s.withInputs (e :: es))) (core.run es.length) := coreRun_succ _ _
    _ = andThen (andThen (step (s.withInputs [e])) (proceedWith es)) (core.run es.length) :=
        congrArg (andThen · _) (step_withInputs_cons e es s)
    _ = andThen (step (s.withInputs [e])) (runEvents es) := andThen_assoc _ _ _

theorem runEvents_append (es fs : List HostEvent) (s : State) :
    runEvents (es ++ fs) s = andThen (runEvents es s) (runEvents fs) := by
  induction es generalizing s with
  | nil => rfl
  | cons e es ih =>
    calc runEvents (e :: (es ++ fs)) s
        = andThen (step (s.withInputs [e])) (runEvents (es ++ fs)) := runEvents_cons e _ s
      _ = andThen (step (s.withInputs [e])) (fun t => andThen (runEvents es t) (runEvents fs)) := by
          rw [funext ih]
      _ = andThen (runEvents (e :: es) s) (runEvents fs) := by
          rw [runEvents_cons, andThen_assoc]

/-- Settles O57: the equation is `runEvents_append`, with `andThen` written out. -/
theorem runsCompose : Obligations.RunsCompose := by
  intro es fs s
  rw [runEvents_append]
  cases runEvents es s <;> rfl

end Sys2Proof.Machine
end

section
/-! PROOFS. The decoder against the opcode map (rules R43, R46): a word's opcode selects one row, and the
decoder accepts the word exactly when that row admits it. -/

namespace Sys2Proof.Machine

/-! ## The four fields of a word -/

theorem toNat_nibble (w : CmdWord) (lo : Nat) : (nibble w lo).toNat = w.toNat / 2 ^ lo % 16 := by
  simp [nibble, Nat.shiftRight_eq_div_pow]

theorem nibble_and (w m : CmdWord) (lo : Nat) : nibble (w &&& m) lo = nibble w lo &&& nibble m lo :=
  BitVec.extractLsb'_and

theorem eq_iff_nibbles (w v : CmdWord) :
    w = v ↔ nibble w 12 = nibble v 12 ∧ nibble w 8 = nibble v 8 ∧ nibble w 4 = nibble v 4 ∧
      nibble w 0 = nibble v 0 := by
  have hw := w.isLt
  have hv := v.isLt
  simp only [← BitVec.toNat_inj, toNat_nibble]
  omega

theorem lowByte_eq_zero_iff (w : CmdWord) : lowByte w = 0#8 ↔ nibble w 4 = 0#4 ∧ nibble w 0 = 0#4 := by
  have h : (lowByte w).toNat = w.toNat % 256 := by simp [lowByte]
  simp only [← BitVec.toNat_inj, toNat_nibble, h, BitVec.toNat_ofNat]
  omega

theorem toNat_append_nibble {n : Nat} (x : BitVec n) (d : BitVec 4) :
    (x ++ d).toNat = 16 * x.toNat + d.toNat := by
  rw [BitVec.toNat_append, ← Nat.shiftLeft_add_eq_or_of_lt d.isLt, Nat.shiftLeft_eq]
  omega

theorem toNat_wordOf (a b c d : BitVec 4) :
    (wordOf a b c d).toNat = 4096 * a.toNat + 256 * b.toNat + 16 * c.toNat + d.toNat := by
  have h : (wordOf a b c d).toNat = (a ++ b ++ c ++ d).toNat := rfl
  simp only [toNat_append_nibble] at h
  omega

section
variable (a b c d : BitVec 4)

@[simp] theorem nibble_wordOf_12 : nibble (wordOf a b c d) 12 = a := by
  rw [← BitVec.toNat_inj, toNat_nibble, toNat_wordOf]
  omega

@[simp] theorem nibble_wordOf_8 : nibble (wordOf a b c d) 8 = b := by
  rw [← BitVec.toNat_inj, toNat_nibble, toNat_wordOf]
  omega

@[simp] theorem nibble_wordOf_4 : nibble (wordOf a b c d) 4 = c := by
  rw [← BitVec.toNat_inj, toNat_nibble, toNat_wordOf]
  omega

@[simp] theorem nibble_wordOf_0 : nibble (wordOf a b c d) 0 = d := by
  rw [← BitVec.toNat_inj, toNat_nibble, toNat_wordOf]
  omega

end

/-! ## The rows of the opcode map -/

theorem and_fifteen (x : BitVec 4) : x &&& 15#4 = x := BitVec.and_allOnes

/-- A row admits a word field by field. -/
theorem admits_iff (r : OpcodeRow) (w : CmdWord) :
    r.admits w = true ↔
      nibble w 12 &&& nibble r.mask 12 = nibble r.pattern 12 ∧
      nibble w 8 &&& nibble r.mask 8 = nibble r.pattern 8 ∧
      nibble w 4 &&& nibble r.mask 4 = nibble r.pattern 4 ∧
      nibble w 0 &&& nibble r.mask 0 = nibble r.pattern 0 := by
  rw [OpcodeRow.admits, beq_iff_eq, eq_iff_nibbles]
  simp only [nibble_and]

theorem row_mem (i : Instr) : i.row ∈ opcodeMap := by
  cases i <;> simp [Instr.row, opcodeMap]

theorem mask_opcode : ∀ r ∈ opcodeMap, nibble r.mask 12 = 0xF#4 := by decide

theorem opcode_injective :
    ∀ r ∈ opcodeMap, ∀ r' ∈ opcodeMap, nibble r.pattern 12 = nibble r'.pattern 12 → r = r' := by
  decide

theorem opcode_not_reserved : ∀ r ∈ opcodeMap, nibble r.pattern 12 ∉ [0x0#4, 0xE#4, 0xF#4] := by
  decide

/-- A row's mask covers the whole opcode. -/
theorem opcode_of_admits {r : OpcodeRow} {w : CmdWord} (hr : r ∈ opcodeMap)
    (h : r.admits w = true) : nibble w 12 = nibble r.pattern 12 := by
  obtain ⟨hop, -⟩ := (admits_iff r w).mp h
  rw [mask_opcode r hr] at hop
  exact (and_fifteen _).symm.trans hop

theorem eq_of_admits {r r' : OpcodeRow} {w : CmdWord} (hr : r ∈ opcodeMap) (hr' : r' ∈ opcodeMap)
    (h : r.admits w = true) (h' : r'.admits w = true) : r = r' :=
  opcode_injective r hr r' hr' ((opcode_of_admits hr h).symm.trans (opcode_of_admits hr' h'))

/-! ## The decoder through the map -/

/-- The answer `o` to the word is that of the one command its opcode selects: the command when its row
admits the word, and otherwise that a must-be-zero field is not zero. -/
def Selects (w : CmdWord) (o : Except Illegal Instr) : Prop :=
  ∃ i : Instr, nibble w 12 = nibble i.row.pattern 12 ∧ o = requireZero (i.row.admits w) i

/-- A command of the word's opcode is selected when its fields are checked as its row's mask says. -/
theorem selects_requireZero {w : CmdWord} {i : Instr} {zero : Bool} {name : String} {n : Nat}
    {m8 m4 m0 : BitVec 4} (hop : (nibble w 12).toNat = n)
    (hrow : i.row = ⟨name, wordOf (BitVec.ofNat 4 n) 0 0 0, wordOf 0xF m8 m4 m0⟩)
    (hzero : zero = true ↔ nibble w 8 &&& m8 = 0 ∧ nibble w 4 &&& m4 = 0 ∧ nibble w 0 &&& m0 = 0) :
    Selects w (requireZero zero i) := by
  have h12 : nibble w 12 = BitVec.ofNat 4 n := by rw [← hop, BitVec.ofNat_toNat, BitVec.setWidth_eq]
  refine ⟨i, by simp [hrow, h12], congrArg (requireZero · i) ?_⟩
  rw [Bool.eq_iff_iff, hzero, admits_iff, hrow]
  simp [h12, and_fifteen]

theorem selects_decodeRR {make : RegId → RegId → Instr} {w : CmdWord} {n : Nat}
    (hop : (nibble w 12).toNat = n)
    (hrow : ∀ rd ra, ∃ name, (make rd ra).row =
      ⟨name, wordOf (BitVec.ofNat 4 n) 0 0 0, wordOf 0xF 0 0 0xF⟩) :
    Selects w (decodeRR make w) :=
  have ⟨_, hr⟩ := hrow (regField w 8) (regField w 4)
  selects_requireZero hop hr (by simp [and_fifteen])

theorem selects_decodeRRR {make : RegId → RegId → RegId → Instr} {w : CmdWord} {n : Nat}
    (hop : (nibble w 12).toNat = n)
    (hrow : ∀ rd ra rb, ∃ name, (make rd ra rb).row =
      ⟨name, wordOf (BitVec.ofNat 4 n) 0 0 0, wordOf 0xF 0 0 0⟩) :
    Selects w (decodeRRR make w) :=
  have ⟨_, hr⟩ := hrow (regField w 8) (regField w 4) (regField w 0)
  selects_requireZero (zero := true) hop hr (by simp)

/-- WHAT THE DECODER CAN ANSWER: the opcode is reserved, or it selects one command. -/
theorem decode_cases (w : CmdWord) :
    (nibble w 12 ∈ [0x0#4, 0xE#4, 0xF#4] ∧ decode w = .error .reservedOpcode) ∨
      Selects w (decode w) := by
  unfold decode
  split <;> rename_i h
  case h_1 =>
    refine .inr (selects_requireZero (m8 := 0) (m4 := 0xF) (m0 := 0xF) h rfl ?_)
    simp [lowByte_eq_zero_iff, and_fifteen]
  case h_2 =>
    refine .inr (selects_requireZero (m8 := 0xF) (m4 := 0) (m0 := 0xF) h rfl ?_)
    simp [and_fifteen]
  case h_3 => exact .inr (selects_decodeRR h fun _ _ => ⟨"MOV", rfl⟩)
  case h_4 =>
    refine .inr (selects_requireZero (zero := true) (m8 := 0) (m4 := 0) (m0 := 0) h rfl ?_)
    simp
  case h_5 => exact .inr (selects_decodeRRR h fun _ _ _ => ⟨"AND", rfl⟩)
  case h_6 => exact .inr (selects_decodeRRR h fun _ _ _ => ⟨"OR", rfl⟩)
  case h_7 => exact .inr (selects_decodeRRR h fun _ _ _ => ⟨"XOR", rfl⟩)
  case h_8 => exact .inr (selects_decodeRRR h fun _ _ _ => ⟨"ADD", rfl⟩)
  case h_9 => exact .inr (selects_decodeRRR h fun _ _ _ => ⟨"ADDNC", rfl⟩)
  case h_10 => exact .inr (selects_decodeRR h fun _ _ => ⟨"NEG", rfl⟩)
  case h_11 => exact .inr (selects_decodeRRR h fun _ _ _ => ⟨"SUB", rfl⟩)
  case h_12 => exact .inr (selects_decodeRRR h fun _ _ _ => ⟨"MUL", rfl⟩)
  case h_13 => exact .inr (selects_decodeRR h fun _ _ => ⟨"ASR", rfl⟩)
  case h_14 =>
    have hlt := (nibble w 12).isLt
    refine .inl ⟨?_, rfl⟩
    simp only [List.mem_cons, List.not_mem_nil, or_false, imp_false, ← BitVec.toNat_inj,
      BitVec.toNat_ofNat] at *
    omega

theorem requireZero_eq_ok {zero : Bool} {i j : Instr} :
    requireZero zero i = .ok j ↔ zero = true ∧ i = j := by
  cases zero <;> simp [requireZero]

/-- A decoded command's own row admits the word. -/
theorem admits_of_decode {w : CmdWord} {i : Instr} (h : decode w = .ok i) :
    i.row.admits w = true := by
  obtain ⟨-, he⟩ | ⟨j, -, hj⟩ := decode_cases w
  · simp [he] at h
  · rw [hj, requireZero_eq_ok] at h
    obtain ⟨hz, rfl⟩ := h
    exact hz

/-- A word that a row admits decodes to a command of that row. -/
theorem decode_of_admits {r : OpcodeRow} {w : CmdWord} (hr : r ∈ opcodeMap)
    (h : r.admits w = true) : ∃ i : Instr, i.row = r ∧ decode w = .ok i := by
  have hop := opcode_of_admits hr h
  obtain ⟨hres, -⟩ | ⟨i, hi, hd⟩ := decode_cases w
  · exact absurd (hop ▸ hres) (opcode_not_reserved r hr)
  · obtain rfl := opcode_injective r hr i.row (row_mem i) (hop.symm.trans hi)
    exact ⟨i, rfl, hd.trans (requireZero_eq_ok.mpr ⟨h, rfl⟩)⟩

theorem exists_admits_iff (w : CmdWord) :
    (∃ r ∈ opcodeMap, r.admits w = true) ↔ ∃ i, decode w = .ok i := by
  constructor
  · rintro ⟨r, hr, h⟩
    obtain ⟨i, -, hi⟩ := decode_of_admits hr h
    exact ⟨i, hi⟩
  · rintro ⟨i, h⟩
    exact ⟨i.row, row_mem i, admits_of_decode h⟩

/-- Settles O4: the rows' opcodes differ, and the decoder is read through the row it selects. -/
theorem opcodeMapDecodes : Obligations.OpcodeMapDecodes := fun w =>
  ⟨fun _ hr _ hr' h h' => eq_of_admits hr hr' h h',
    fun i h => ⟨row_mem i, admits_of_decode h⟩, exists_admits_iff w⟩

/-! ## The illegal words -/

theorem decode_error_iff (w : CmdWord) :
    (∃ e, decode w = .error e) ↔ ¬ ∃ r ∈ opcodeMap, r.admits w = true := by
  rw [exists_admits_iff]
  cases decode w <;> simp

/-- An illegal word, accepted, takes the fault `IllegalCommand` (rules R46, R131). -/
theorem step_of_illegal {s : State} {w : CmdWord} {din : Bits} {rest : List HostEvent}
    (hh : s.halted = false) (hb : s.busy = false) (he : ∃ e, decode w = .error e)
    (hin : s.inputs = .command w din :: rest) :
    step s = .next ((s.accept w din rest).faulted .illegalCommand) := by
  obtain ⟨e, he⟩ := he
  simpa [hin, hh, hb, he] using step_cases s

/-- The map's rows, read field by field. -/
theorem exists_admits_iff_fields (w : CmdWord) :
    (∃ r ∈ opcodeMap, r.admits w = true) ↔
      nibble w 12 = 0x1#4 ∧ nibble w 4 = 0#4 ∧ nibble w 0 = 0#4 ∨
      nibble w 12 = 0x2#4 ∧ nibble w 8 = 0#4 ∧ nibble w 0 = 0#4 ∨
      nibble w 12 = 0x3#4 ∧ nibble w 0 = 0#4 ∨
      nibble w 12 = 0x4#4 ∨ nibble w 12 = 0x5#4 ∨ nibble w 12 = 0x6#4 ∨ nibble w 12 = 0x7#4 ∨
      nibble w 12 = 0x8#4 ∨ nibble w 12 = 0x9#4 ∨
      nibble w 12 = 0xA#4 ∧ nibble w 0 = 0#4 ∨
      nibble w 12 = 0xB#4 ∨ nibble w 12 = 0xC#4 ∨
      nibble w 12 = 0xD#4 ∧ nibble w 0 = 0#4 := by
  simp [opcodeMap, admits_iff, nibble, and_fifteen]

/-- An illegal word in the numbers of rule R46's fields. -/
theorem decode_error_iff_fields (w : CmdWord) :
    (∃ e, decode w = .error e) ↔
      (w.toNat / 4096 = 0x0 ∨ w.toNat / 4096 = 0xE ∨ w.toNat / 4096 = 0xF ∨
      ((w.toNat / 4096 = 0x3 ∨ w.toNat / 4096 = 0xA ∨ w.toNat / 4096 = 0xD) ∧ w.toNat % 16 ≠ 0) ∨
      (w.toNat / 4096 = 0x1 ∧ w.toNat % 256 ≠ 0) ∨
      (w.toNat / 4096 = 0x2 ∧ (w.toNat / 256 % 16 ≠ 0 ∨ w.toNat % 16 ≠ 0))) := by
  have hw := w.isLt
  simp only [decode_error_iff, exists_admits_iff_fields, ← BitVec.toNat_inj, toNat_nibble,
    BitVec.toNat_ofNat]
  omega

/-- Settles O3: the decoder is a function, refuses what no row admits, and an illegal word faults. -/
theorem decodeTotal : Obligations.DecodeTotal := by
  intro w
  refine ⟨fun i j hi hj => Except.ok.inj (hi.symm.trans hj), decode_error_iff_fields w, ?_⟩
  intro s hh hb he din rest hin
  rw [step_of_illegal hh hb he hin, hb]
  rfl

end Sys2Proof.Machine
end

section
/-! PROOFS. The host-side functions (rules R60 to R63, R68): `bitsOf` writes out the low bits of a number,
`val` reads them back, and `fromNat` takes one bit more than its argument has. -/

namespace Sys2Proof.Machine

/-! ## The low bits of a number, most-significant first -/

@[simp] theorem length_bitsOf (len i : Nat) : (bitsOf len i).length = len := by
  induction len with
  | zero => rfl
  | succ len ih => simp [bitsOf, ih]

theorem lsb_cons_of_lt (b : Bool) {v : Bits} {k : Nat} (h : k < v.length) :
    lsb (b :: v) k = lsb v k := by
  simp [lsb, List.getD, List.getElem?_append_left, h]

@[simp] theorem lsb_cons_length (b : Bool) (v : Bits) : lsb (b :: v) v.length = b := by
  simp [lsb, List.getD]

theorem lsb_bitsOf {len k : Nat} (i : Nat) (h : k < len) : lsb (bitsOf len i) k = i.testBit k := by
  induction len with
  | zero => omega
  | succ len ih =>
    obtain hk | rfl := Nat.lt_succ_iff_lt_or_eq.mp h
    · rw [← ih hk]
      exact lsb_cons_of_lt _ (by simpa using hk)
    · simpa [bitsOf] using lsb_cons_length (i.testBit k) (bitsOf k i)

theorem val_bitsOf (len i : Nat) : val (bitsOf len i) = i % 2 ^ len := by
  induction len with
  | zero => simp [bitsOf, Nat.mod_one]
  | succ len ih =>
    rw [bitsOf, val_cons, ih, length_bitsOf, Nat.toNat_testBit, Nat.mod_pow_succ, Nat.mul_comm,
      Nat.add_comm]

/-! ## `fromNat` -/

/-- The special case of rule R62 is the general width formula, since `Nat.log2 0 = 0`. -/
theorem fromNat_eq_bitsOf (i : Nat) : fromNat i = bitsOf (i.log2 + 2) i := by
  unfold fromNat
  split
  case isTrue h => subst h; rfl
  case isFalse => rfl

@[simp] theorem length_fromNat (i : Nat) : (fromNat i).length = i.log2 + 2 := by
  rw [fromNat_eq_bitsOf, length_bitsOf]

/-- Settles O7: a constructed vector is `bitsOf`, whose bits are those of the number. -/
theorem freshVectorBits : Obligations.FreshVectorBits := by
  intro i _
  refine ⟨by rw [length_fromNat, Nat.log2_eq_log_two], fun k hk => ?_⟩
  rw [length_fromNat] at hk
  rw [fromNat_eq_bitsOf, lsb_bitsOf i hk, Nat.toNat_testBit]

/-- Settles O8: index 0 has weight `2 ^ (log2 i + 1)`, and `i` is below that power of two. -/
theorem freshLeadingZero : Obligations.FreshLeadingZero := by
  refine ⟨rfl, fun i => ?_⟩
  have htop : i.testBit (i.log2 + 1) = false := Nat.testBit_lt_two_pow Nat.lt_log2_self
  rw [fromNat_eq_bitsOf, bitsOf, htop]
  rfl

/-! ## `toNat` -/

/-- The fold of rule R63 from any accumulator: each bit read doubles it. -/
theorem foldl_bits (acc : Nat) (v : Bits) :
    v.foldl (fun acc b => 2 * acc + b.toNat) acc = acc * 2 ^ v.length + val v := by
  induction v generalizing acc with
  | nil => simp
  | cons b v ih =>
    rw [List.foldl_cons, ih, val_cons, List.length_cons, pow_succ]
    ring

theorem toNat_eq_val (v : Bits) : toNat v = val v := by
  rw [toNat, foldl_bits, Nat.zero_mul, Nat.zero_add]

/-- Settles O9: the fold from accumulator 0. -/
theorem conversionExact : Obligations.ConversionExact := toNat_eq_val

theorem val_fromNat (n : Nat) : val (fromNat n) = n := by
  have hlt : n < 2 ^ (n.log2 + 2) :=
    Nat.lt_log2_self.trans (Nat.pow_lt_pow_right (by decide) (by omega))
  rw [fromNat_eq_bitsOf, val_bitsOf, Nat.mod_eq_of_lt hlt]

/-- Settles O10: the number fits in the bits that `fromNat` writes out. -/
theorem conversionRoundTrip : Obligations.ConversionRoundTrip := fun n =>
  (toNat_eq_val _).trans (val_fromNat n)

end Sys2Proof.Machine
end

section
/-! PROOFS. `LDV`, `STV` and `MOV` (rules R65 to R67): the equation of each command in each of its cases, read
as a completion or as a fault. -/

namespace Sys2Proof.Machine

/-! ## Completion and fault -/

/-- A command that answers `writeback` completes. -/
theorem completesWith_of_writeback {i : Instr} {s : State} {rd : RegId} {v : Bits} {w : Working}
    (h : exec i s = writeback rd v w s) : CompletesWith i s rd v := ⟨w, h⟩

/-- A command that goes through the fault entry takes the fault, with the code of rule R130. -/
theorem faults_of_faulted {i : Instr} {s : State} {f : Fault}
    (h : exec i s = .next (s.faulted f)) : Faults i s f (faultCode f) := ⟨rfl, h⟩

/-- Writing back what a register holds changes no register. -/
theorem regs_set_held {s : State} {r : RegId} {v : Bits} (h : s.reg r = .held v) :
    s.regs.set r (.held v) = s.regs := by
  rw [← h, reg_def]
  exact Vector.set_getElem_self _

/-! ## The three commands -/

section
variable {rd ra : RegId} {s : State} {v : Bits}

theorem exec_ldv_of_fits (hpos : 1 ≤ s.port.din.length) (hfits : fits s.cfg s.port.din.length = true) :
    exec (.ldv rd) s = writeback rd s.port.din s.work s := by
  have hne : s.port.din.length ≠ 0 := by omega
  simp [exec, execLdv, hne, hfits]

theorem exec_ldv_of_badLength
    (h : s.port.din.length = 0 ∨ fits s.cfg s.port.din.length = false) :
    exec (.ldv rd) s = .next (s.faulted .badLength) := by
  simp only [exec, execLdv]
  obtain hempty | hlong := h
  · simp [hempty, takeFault]
  · simp [hlong, takeFault]

theorem exec_stv_held (h : s.reg ra = .held v) :
    exec (.stv ra) s = outputVector v (s.work.latchOne v) s :=
  withSource_held ra s _ v h

theorem exec_mov_held (h : s.reg ra = .held v) :
    exec (.mov rd ra) s = writeback rd v (s.work.latchOne v) s :=
  withSource_held ra s _ v h

end

/-- Settles O28: the two outcomes of the length check. -/
theorem loadResult : Obligations.LoadResult := fun _ _ =>
  ⟨fun hpos hfits => completesWith_of_writeback (exec_ldv_of_fits hpos hfits),
    fun h => faults_of_faulted (exec_ldv_of_badLength h)⟩

/-- Settles O29: the two outcomes of reading `ra`. -/
theorem storeResult : Obligations.StoreResult := fun ra s =>
  ⟨fun _ h => ⟨_, exec_stv_held h⟩, fun h => faults_of_faulted (withSource_unwritten ra s _ h)⟩

/-- Settles O30: the two outcomes of reading `ra`; onto itself `MOV` writes back what the register holds. -/
theorem cloneResult : Obligations.CloneResult := by
  intro rd ra s
  refine ⟨fun v h => ⟨completesWith_of_writeback (exec_mov_held h), ?_⟩,
    fun h => faults_of_faulted (withSource_unwritten ra s _ h)⟩
  rintro rfl
  exact regs_set_held h

end Sys2Proof.Machine
end

section
/-! PROOFS. Padding and `PAD` (rules R70, R72): the zeros stand at the most-significant end, so every bit keeps
its weight. -/

namespace Sys2Proof.Machine

/-! ## The padded vector -/

theorem pad_succ (v : Bits) (n : Nat) : pad v (n + 1) = false :: pad v n := rfl

theorem getElem?_pad_of_lt (v : Bits) {n i : Nat} (h : i < n) : (pad v n)[i]? = some false := by
  rw [pad, List.getElem?_append_left (by simpa using h), zeros, List.getElem?_replicate_of_lt h]

theorem getElem?_pad_add (v : Bits) (n j : Nat) : (pad v n)[n + j]? = v[j]? := by
  simp [pad, List.getElem?_append_right]

theorem bitAt_pad_zero (v : Bits) {n : Nat} (h : 1 ≤ n) : bitAt (pad v n) 0 = false := by
  rw [bitAt, List.getD, getElem?_pad_of_lt v h, Option.getD_some]

@[simp] theorem val_pad (v : Bits) (n : Nat) : val (pad v n) = val v := by
  rw [pad, val_append, val_zeros, Nat.zero_mul, Nat.zero_add]

/-- A zero in front changes no bit by weight: the position it takes read 0 already. -/
theorem lsb_false_cons (v : Bits) (k : Nat) : lsb (false :: v) k = lsb v k := by
  obtain hlt | rfl | hgt := Nat.lt_trichotomy k v.length
  · exact lsb_cons_of_lt false hlt
  · rw [lsb_cons_length, lsb_of_le v _ le_rfl]
  · rw [lsb_of_le (false :: v) k hgt, lsb_of_le v k hgt.le]

@[simp] theorem lsb_pad (v : Bits) (n k : Nat) : lsb (pad v n) k = lsb v k := by
  induction n with
  | zero => rfl
  | succ n ih => rw [pad_succ, lsb_false_cons, ih]

theorem pad_pad (v : Bits) (n m : Nat) : pad (pad v n) m = pad v (n + m) := by
  induction m with
  | zero => rfl
  | succ m ih => rw [pad_succ, ih]; rfl

/-- Settles O11: each clause is the lemma of that property of `pad`. -/
theorem paddingLaws : Obligations.PaddingLaws := fun v n =>
  ⟨(length_pad v n).trans (Nat.add_comm n v.length), fun _ => getElem?_pad_of_lt v,
    fun j _ => getElem?_pad_add v n j, val_pad v n, fun k _ => lsb_pad v n k,
    fun k hk => (lsb_pad v n k).trans (lsb_of_le v k hk), pad_zero v, pad_pad v n⟩

/-! ## The command -/

section
variable {rd : RegId} {n : Nat} {s : State} {v : Bits}

theorem exec_pad_of_fits (h : s.reg rd = .held v) (hfits : fits s.cfg (v.length + n) = true) :
    exec (.pad rd n) s = writeback rd (pad v n) (s.work.latchOne v) s := by
  simp [exec, execPad, h, hfits]

theorem exec_pad_of_overflow (h : s.reg rd = .held v) (hfits : fits s.cfg (v.length + n) = false) :
    exec (.pad rd n) s = .next (s.faulted .lengthOverflow) := by
  simp [exec, execPad, h, hfits, takeFault]

end

/-- Settles O31: the outcomes of reading `rd` and of the length check; the completed result is `pad v n`. -/
theorem padResult : Obligations.PadResult := by
  intro rd n s
  refine ⟨fun h => faults_of_faulted (withSource_unwritten rd s _ h), fun v h =>
    ⟨fun hlong => faults_of_faulted (exec_pad_of_overflow h hlong), fun hfits => ?_⟩⟩
  refine ⟨pad v n, completesWith_of_writeback (exec_pad_of_fits h hfits), rfl, val_pad v n,
    bitAt_pad_zero v, ?_⟩
  rintro rfl
  exact pad_zero v

end Sys2Proof.Machine
end

section
/-! PROOFS. `AND`, `OR` and `XOR` (rules R75 to R80): each bit of a result by weight, which gives its value
through `Nat.testBit`. -/

namespace Sys2Proof.Machine

/-! ## Bits by weight -/

theorem getElem?_eq_bitAt {v : Bits} {i : Nat} (h : i < v.length) : v[i]? = some (bitAt v i) := by
  simp [bitAt, h]

/-- The bit of weight `2^k` of a vector is bit `k` of its value. -/
theorem testBit_val (v : Bits) (k : Nat) : (val v).testBit k = lsb v k := by
  induction v with
  | nil => simp [lsb]
  | cons b v ih =>
    rw [val_cons, Nat.mul_comm, Nat.testBit_two_pow_mul_add _ (val_lt v), ih]
    split
    case isTrue h => exact (lsb_cons_of_lt b h).symm
    case isFalse h =>
      obtain rfl | hgt := (Nat.le_of_not_lt h).eq_or_lt
      · cases b <;> simp
      · rw [lsb_of_le (b :: v) k hgt]
        exact Nat.testBit_lt_two_pow (b.toNat_lt.trans_le (Nat.le_self_pow (by omega) 2))

/-- Dropping leading bits keeps the weights of the others. -/
theorem lsb_drop {v : Bits} {d k : Nat} (h : k < v.length - d) : lsb (v.drop d) k = lsb v k := by
  simp [lsb, List.getD, List.reverse_drop, List.getElem?_take_of_lt h]

/-! ## The bitwise unit -/

section
variable (f : Bool → Bool → Bool) {a b : Bits} {i k : Nat}

theorem getElem?_bw_of_leading (h : i < a.length - min a.length b.length) :
    (bw f a b)[i]? = a[i]? := by
  simp only [bw]
  rw [List.getElem?_append_left (by simp; omega), List.getElem?_take_of_lt h]

/-- The combined part, counted from where it begins in each operand. -/
theorem getElem?_bw_add (h : i < min a.length b.length) :
    (bw f a b)[a.length - min a.length b.length + i]? =
      some (f (bitAt a (a.length - min a.length b.length + i))
        (bitAt b (b.length - min a.length b.length + i))) := by
  simp only [bw]
  rw [List.getElem?_append_right (by simp), List.length_take_of_le (Nat.sub_le _ _),
    Nat.add_sub_cancel_left, List.getElem?_zipWith, List.getElem?_drop, List.getElem?_drop,
    getElem?_eq_bitAt, getElem?_eq_bitAt] <;> omega

theorem getElem?_bw_of_common (h : k < min a.length b.length) :
    (bw f a b)[a.length - 1 - k]? =
      some (f (bitAt a (a.length - 1 - k)) (bitAt b (b.length - 1 - k))) := by
  have ha : a.length - 1 - k =
      a.length - min a.length b.length + (min a.length b.length - 1 - k) := by omega
  have hb : b.length - 1 - k =
      b.length - min a.length b.length + (min a.length b.length - 1 - k) := by omega
  rw [ha, hb]
  exact getElem?_bw_add f (by omega)

theorem lsb_bw (ha : k < a.length) :
    lsb (bw f a b) k = if k < b.length then f (lsb a k) (lsb b k) else lsb a k := by
  rw [lsb_eq_bitAt _ k (by simpa using ha), lsb_eq_bitAt a k ha, length_bw, bitAt, List.getD]
  split
  case isTrue hb =>
    rw [getElem?_bw_of_common f (lt_min ha hb), lsb_eq_bitAt b k hb, Option.getD_some]
  case isFalse hb =>
    rw [getElem?_bw_of_leading f (by omega), bitAt, List.getD]

/-- An operation with `f x 0 = x` keeps the bits beyond the right operand, as if it read 0 there. -/
theorem lsb_bw_of_right_false (hf : ∀ x, f x false = x) (ha : k < a.length) :
    lsb (bw f a b) k = f (lsb a k) (lsb b k) := by
  rw [lsb_bw f ha]
  split
  case isTrue => rfl
  case isFalse hb => rw [lsb_of_le b k (Nat.le_of_not_lt hb), hf]

/-- The value of the result: on every bit, beyond the left length too, where both sides are 0. -/
theorem testBit_val_bw (hf : ∀ x, f x false = x) (k : Nat) :
    (val (bw f a b)).testBit k = f ((val a).testBit k) ((val b % 2 ^ a.length).testBit k) := by
  rw [Nat.testBit_mod_two_pow, testBit_val, testBit_val, testBit_val]
  by_cases h : k < a.length
  · simp only [h, decide_true, Bool.true_and, lsb_bw_of_right_false f hf h]
  · have hle : a.length ≤ k := Nat.le_of_not_lt h
    rw [lsb_of_le _ k ((length_bw f a b).trans_le hle), lsb_of_le a k hle, decide_eq_false h,
      Bool.false_and, hf]

theorem bw_self (a : Bits) : bw f a a = a.map fun x => f x x := by
  simp [bw]

end

/-- Settles O13: the leading bits of the left operand, and below them the combined ones. -/
theorem bitwiseByWeight : Obligations.BitwiseByWeight := fun f a b =>
  ⟨length_bw f a b, fun _ => getElem?_bw_of_common f, fun _ => getElem?_bw_of_leading f⟩

/-! ## The three results, bit by bit -/

section
variable (a b : Bits) {k : Nat}

theorem lsb_andVec (k : Nat) : lsb (andVec a b) k = (lsb a k && lsb b k) := by
  have hpad : andVec a b = pad ((bw (· && ·) a b).drop (a.length - b.length)) (a.length - b.length) := rfl
  rw [hpad, lsb_pad]
  by_cases h : k < a.length ∧ k < b.length
  · rw [lsb_drop (by rw [length_bw]; omega), lsb_bw _ h.1, if_pos h.2]
  · rw [lsb_of_le _ k (by rw [List.length_drop, length_bw]; omega)]
    obtain ha | hb : a.length ≤ k ∨ b.length ≤ k := by omega
    · rw [lsb_of_le a k ha, Bool.false_and]
    · rw [lsb_of_le b k hb, Bool.and_false]

theorem lsb_orVec (h : k < a.length) : lsb (orVec a b) k = (lsb a k || lsb b k) :=
  lsb_bw_of_right_false _ Bool.or_false h

theorem lsb_xorVec (h : k < a.length) : lsb (xorVec a b) k = xor (lsb a k) (lsb b k) :=
  lsb_bw_of_right_false _ Bool.xor_false h

/-! ## Their values -/

theorem val_andVec : val (andVec a b) = val a &&& val b :=
  Nat.eq_of_testBit_eq fun k => by simp only [Nat.testBit_and, testBit_val, lsb_andVec]

theorem val_orVec : val (orVec a b) = val a ||| (val b % 2 ^ a.length) :=
  Nat.eq_of_testBit_eq fun k => by rw [Nat.testBit_or, ← testBit_val_bw _ Bool.or_false, orVec]

theorem val_xorVec : val (xorVec a b) = val a ^^^ (val b % 2 ^ a.length) :=
  Nat.eq_of_testBit_eq fun k => by rw [Nat.testBit_xor, ← testBit_val_bw _ Bool.xor_false, xorVec]

/-- A result of the left length bounds `val b`, which is at most the exact `OR`. -/
theorem val_orVec_eq_iff : val (orVec a b) = val a ||| val b ↔ val b < 2 ^ a.length := by
  constructor
  · intro h
    have hlt : val (orVec a b) < 2 ^ a.length := length_orVec a b ▸ val_lt (orVec a b)
    exact (h ▸ Nat.right_le_or).trans_lt hlt
  · intro h
    rw [val_orVec, Nat.mod_eq_of_lt h]

/-- `XOR` with `val a` on the left is injective, and the right value modulo `2^len` is what is combined. -/
theorem val_xorVec_eq_iff : val (xorVec a b) = val a ^^^ val b ↔ val b < 2 ^ a.length := by
  rw [val_xorVec, Nat.xor_right_inj, Nat.mod_eq_iff_lt (by simp)]

end

/-- Settles O14: each clause is the value lemma of that operation; the two examples are evaluated. -/
theorem bitwiseValues : Obligations.BitwiseValues :=
  ⟨by decide, fun a b => ⟨val_andVec a b, val_orVec a b, val_xorVec a b, val_orVec_eq_iff a b,
    val_xorVec_eq_iff a b⟩⟩

/-- Settles O15: on equal operands the unit maps `x` to `f x x`. -/
theorem bitwiseIdentities : Obligations.BitwiseIdentities := by
  intro a
  have hxor : xorVec a a = zeros a.length := by simp [xorVec, bw_self, zeros]
  exact ⟨by simp [andVec, bw_self], by simp [orVec, bw_self], hxor, by rw [hxor, val_zeros]⟩

/-! ## The commands -/

section
variable {rd ra rb : RegId} {s : State} {a b : Bits}

theorem exec_and_held (ha : s.reg ra = .held a) (hb : s.reg rb = .held b) :
    exec (.and rd ra rb) s = writeback rd (andVec a b) (s.work.latch a b) s :=
  withSources_held ra rb s _ a b ha hb

theorem exec_or_held (ha : s.reg ra = .held a) (hb : s.reg rb = .held b) :
    exec (.or rd ra rb) s = writeback rd (orVec a b) (s.work.latch a b) s :=
  withSources_held ra rb s _ a b ha hb

theorem exec_xor_held (ha : s.reg ra = .held a) (hb : s.reg rb = .held b) :
    exec (.xor rd ra rb) s = writeback rd (xorVec a b) (s.work.latch a b) s :=
  withSources_held ra rb s _ a b ha hb

end

/-- Settles O32: the two outcomes of reading the sources; a completed result is described bit by bit. -/
theorem bitwiseResult : Obligations.BitwiseResult := by
  intro rd ra rb s
  refine ⟨fun h => ?_, fun a b ha hb => ?_⟩
  · exact ⟨faults_of_faulted (withSources_unwritten ra rb s _ h),
      faults_of_faulted (withSources_unwritten ra rb s _ h),
      faults_of_faulted (withSources_unwritten ra rb s _ h)⟩
  · exact ⟨⟨_, completesWith_of_writeback (exec_and_held ha hb), length_andVec a b,
        fun k _ => lsb_andVec a b k⟩,
      ⟨_, completesWith_of_writeback (exec_or_held ha hb), length_orVec a b,
        fun _ => lsb_orVec a b⟩,
      ⟨_, completesWith_of_writeback (exec_xor_held ha hb), length_xorVec a b,
        fun _ => lsb_xorVec a b⟩⟩

end Sys2Proof.Machine
end

section
/-! PROOFS. The ripple-carry adder, `ADD` and `ADDNC` (rules R85 to R89): the law of one cell gives the exact
value of a chain of cells by induction along it; the carry out of every position follows from that value. -/

namespace Sys2Proof.Machine

/-! ## The cell -/

theorem two_mul_maj_add_cellSum (x y c : Bool) :
    2 * (maj x y c).toNat + (cellSum x y c).toNat = x.toNat + y.toNat + c.toNat := by
  cases x <;> cases y <;> cases c <;> rfl

/-- Settles O16: the eight rows of the cell's table. -/
theorem cellTable : Obligations.CellTable := two_mul_maj_add_cellSum

theorem maj_comm (x y c : Bool) : maj x y c = maj y x c := by
  cases x <;> cases y <;> cases c <;> rfl

theorem cellSum_comm (x y c : Bool) : cellSum x y c = cellSum y x c := by
  rw [cellSum, cellSum, Bool.xor_comm x y]

/-! ## The chain of cells -/

theorem rippleChain_comm (a b : Bits) (c : Bool) : rippleChain a b c = rippleChain b a c := by
  induction a generalizing b with
  | nil => cases b <;> rfl
  | cons x a ih =>
    cases b with
    | nil => rfl
    | cons y b => rw [rippleChain_cons, rippleChain_cons, ih b, maj_comm x y, cellSum_comm x y]

/-- A leading bit weighs a multiple of every `2^k` up to its own weight. -/
theorem val_cons_mod (x : Bool) {v : Bits} {k : Nat} (hk : k ≤ v.length) :
    val (x :: v) % 2 ^ k = val v % 2 ^ k := by
  have hdvd : 2 ^ k ∣ x.toNat * 2 ^ v.length := (pow_dvd_pow 2 hk).mul_left _
  rw [val_cons, Nat.add_mod, Nat.mod_eq_zero_of_dvd hdvd, Nat.zero_add, Nat.mod_mod]

theorem lsb_cons_of_length_eq (x : Bool) {v : Bits} {k : Nat} (hk : v.length = k) :
    lsb (x :: v) k = x := hk ▸ lsb_cons_length x v

section
variable {a b : Bits} (c : Bool)

theorem length_rippleChain_of_eq (hlen : a.length = b.length) :
    (rippleChain a b c).1.length = a.length := by
  rw [length_rippleChain, ← hlen, Nat.min_self]

/-- The exact value law of the chain, the carry out counted at `2^len`. -/
theorem val_rippleChain (hlen : a.length = b.length) :
    val (rippleChain a b c).1 + 2 ^ a.length * (rippleChain a b c).2.toNat =
      val a + val b + c.toNat := by
  induction a generalizing b with
  | nil =>
    obtain rfl := List.length_eq_zero_iff.mp hlen.symm
    simp
  | cons x a ih =>
    obtain ⟨y, b, rfl⟩ := List.exists_cons_of_length_eq_add_one hlen.symm
    have htail : a.length = b.length := Nat.succ.inj hlen
    have hsum := length_rippleChain_of_eq c htail
    have hcell := two_mul_maj_add_cellSum x y (rippleChain a b c).2
    rw [rippleChain_cons, val_cons, val_cons, val_cons, List.length_cons, hsum, ← htail, pow_succ]
    linear_combination ih htail + 2 ^ a.length * hcell

/-- The sum bits are worth less than `2^len`, so the carry out tells whether the total reaches it. -/
theorem carry_rippleChain (hlen : a.length = b.length) :
    (rippleChain a b c).2 = decide (2 ^ a.length ≤ val a + val b + c.toNat) := by
  have hsum : val (rippleChain a b c).1 < 2 ^ a.length :=
    length_rippleChain_of_eq c hlen ▸ val_lt (rippleChain a b c).1
  rw [← val_rippleChain c hlen]
  cases (rippleChain a b c).2 with
  | false => simpa using hsum
  | true => simp

/-- Each sum bit is the exclusive or of the operand bits and of the carry out of the cells below. -/
theorem lsb_rippleChain (hlen : a.length = b.length) {k : Nat} (hk : k < a.length) :
    lsb (rippleChain a b c).1 k =
      xor (xor (lsb a k) (lsb b k)) (decide (2 ^ k ≤ val a % 2 ^ k + val b % 2 ^ k + c.toNat)) := by
  induction a generalizing b with
  | nil => simp at hk
  | cons x a ih =>
    obtain ⟨y, b, rfl⟩ := List.exists_cons_of_length_eq_add_one hlen.symm
    have htail : a.length = b.length := Nat.succ.inj hlen
    have hsum := length_rippleChain_of_eq c htail
    have hka : k ≤ a.length := Nat.le_of_lt_succ hk
    rw [rippleChain_cons, val_cons_mod x hka, val_cons_mod y (hka.trans_eq htail)]
    obtain hlt | rfl := hka.lt_or_eq
    · rw [lsb_cons_of_lt _ (hlt.trans_eq hsum.symm), lsb_cons_of_lt x hlt,
        lsb_cons_of_lt y (hlt.trans_eq htail), ih htail hlt]
    · rw [lsb_cons_of_length_eq _ hsum, lsb_cons_length, lsb_cons_of_length_eq y htail.symm,
        Nat.mod_eq_of_lt (val_lt a), Nat.mod_eq_of_lt (htail ▸ val_lt b), cellSum, carry_rippleChain c htail]

end

/-! ## The ripple pass -/

section
variable (a b : Bits)

@[simp] theorem val_equalize_left : val (equalize a b).1 = val a := val_pad a _

@[simp] theorem val_equalize_right : val (equalize a b).2.1 = val b := val_pad b _

@[simp] theorem lsb_equalize_left (k : Nat) : lsb (equalize a b).1 k = lsb a k := lsb_pad a _ k

@[simp] theorem lsb_equalize_right (k : Nat) : lsb (equalize a b).2.1 k = lsb b k := lsb_pad b _ k

theorem width_comm : width a b = width b a := Nat.max_comm _ _

theorem equalize_swap : equalize b a = ((equalize a b).2.1, (equalize a b).1, (equalize a b).2.2) := by
  simp only [equalize, width_comm b a]

theorem length_equalize_eq : (equalize a b).1.length = (equalize a b).2.1.length := by
  rw [length_equalize_left, length_equalize_right]

theorem val_ripple : val (ripple a b).1 + 2 ^ width a b * (ripple a b).2.toNat = val a + val b := by
  simpa [ripple] using val_rippleChain false (length_equalize_eq a b)

theorem carry_ripple : (ripple a b).2 = decide (2 ^ width a b ≤ val a + val b) := by
  simpa [ripple] using carry_rippleChain false (length_equalize_eq a b)

theorem lsb_ripple {k : Nat} (hk : k < width a b) :
    lsb (ripple a b).1 k =
      xor (xor (lsb a k) (lsb b k)) (decide (2 ^ k ≤ val a % 2 ^ k + val b % 2 ^ k)) := by
  simpa [ripple] using lsb_rippleChain false (length_equalize_eq a b)
    (hk.trans_eq (length_equalize_left a b).symm)

theorem ripple_comm : ripple a b = ripple b a := by
  rw [ripple, ripple, equalize_swap a b, rippleChain_comm]

end

/-- Settles O17: the value law and the sum bits of the chain, on the equalised operands. -/
theorem rippleExact : Obligations.RippleExact := fun a b =>
  ⟨rfl, rfl, length_ripple a b, val_ripple a b, fun _ => lsb_ripple a b⟩

/-! ## `add` and `addnc` -/

section
variable (a b : Bits)

@[simp] theorem val_add : val (add a b) = val a + val b := by
  rw [add, val_cons, length_ripple, ← val_ripple a b, Nat.mul_comm, Nat.add_comm]

@[simp] theorem val_addnc : val (addnc a b) = (val a + val b) % 2 ^ width a b := by
  have hlt : val (ripple a b).1 < 2 ^ width a b := length_ripple a b ▸ val_lt (ripple a b).1
  rw [← val_ripple a b, Nat.add_mul_mod_self_left, Nat.mod_eq_of_lt hlt, addnc]

theorem bitAt_add_zero : bitAt (add a b) 0 = decide (2 ^ width a b ≤ val a + val b) :=
  carry_ripple a b

theorem add_operands_comm : add a b = add b a := by rw [add, add, ripple_comm]

theorem addnc_operands_comm : addnc a b = addnc b a := by rw [addnc, addnc, ripple_comm]

theorem val_add_assoc (c : Bits) : val (add (add a b) c) = val (add a (add b c)) := by
  simp only [val_add, Nat.add_assoc]

end

/-- Settles O18: each clause is the law of that function; the lengths are those of rule R89's example. -/
theorem additionLaws : Obligations.AdditionLaws :=
  ⟨fun a b => ⟨length_add a b, val_add a b, length_addnc a b, val_addnc a b, add_operands_comm a b,
    addnc_operands_comm a b⟩,
    val_add_assoc, zeros 2, zeros 2, zeros 5, by decide⟩

/-! ## The commands -/

section
variable {rd ra rb : RegId} {s : State} {a b : Bits}

theorem exec_add_of_fits (ha : s.reg ra = .held a) (hb : s.reg rb = .held b)
    (hfits : fits s.cfg (width a b + 1) = true) :
    exec (.add rd ra rb) s = writeback rd (add a b) ((s.work.latch a b).setCarry (ripple a b).2) s := by
  simp [exec, execAdd, withSources_held ra rb s _ a b ha hb, hfits]

theorem exec_add_of_overflow (ha : s.reg ra = .held a) (hb : s.reg rb = .held b)
    (hlong : fits s.cfg (width a b + 1) = false) :
    exec (.add rd ra rb) s = .next (s.faulted .lengthOverflow) := by
  simp [exec, execAdd, withSources_held ra rb s _ a b ha hb, hlong, takeFault]

theorem exec_addnc_held (ha : s.reg ra = .held a) (hb : s.reg rb = .held b) :
    exec (.addnc rd ra rb) s =
      writeback rd (addnc a b) ((s.work.latch a b).setCarry (ripple a b).2) s :=
  withSources_held ra rb s _ a b ha hb

end

/-- Settles O33: the outcomes of reading the sources and of the length check; the result is `add a b`. -/
theorem addResult : Obligations.AddResult := by
  intro rd ra rb s
  refine ⟨fun h => faults_of_faulted (withSources_unwritten ra rb s _ h), fun a b ha hb =>
    ⟨fun hlong => faults_of_faulted (exec_add_of_overflow ha hb hlong), fun hfits => ?_⟩⟩
  exact ⟨add a b, completesWith_of_writeback (exec_add_of_fits ha hb hfits), length_add a b, val_add a b,
    bitAt_add_zero a b⟩

/-- Settles O34: the two outcomes of reading the sources; the result is `addnc a b`. -/
theorem addncResult : Obligations.AddncResult := fun _ ra rb s =>
  ⟨fun h => faults_of_faulted (withSources_unwritten ra rb s _ h), fun a b ha hb =>
    ⟨addnc a b, completesWith_of_writeback (exec_addnc_held ha hb), length_addnc a b, val_addnc a b⟩⟩

end Sys2Proof.Machine
end

section
/-! PROOFS. The two's-complement negator and `NEG` (rules R95 to R97): a vector and its negation weigh `2^len`
together, unless the vector is zero, which is its own negation; length and value fix a vector. -/

namespace Sys2Proof.Machine

/-! ## Vectors by value -/

/-- Index 0 has half the weight of `2^len`. -/
theorem bitAt_zero_eq_decide (v : Bits) : bitAt v 0 = decide (2 ^ v.length ≤ 2 * val v) := by
  cases v with
  | nil => rfl
  | cons b v =>
    have hlt := val_lt v
    rw [bitAt_zero_cons, val_cons, List.length_cons, pow_succ]
    cases b <;> simp <;> omega

theorem sval_eq_ite (v : Bits) :
    sval v = if 2 ^ v.length ≤ 2 * val v then (val v : Int) - 2 ^ v.length else val v := by
  simp only [sval, bitAt_zero_eq_decide, decide_eq_true_eq]

/-- Index 0 is read off the value, and the rest of the value is the tail's. -/
theorem eq_of_val_eq {a b : Bits} (hlen : a.length = b.length) (h : val a = val b) : a = b := by
  induction a generalizing b with
  | nil => exact (List.length_eq_zero_iff.mp hlen.symm).symm
  | cons x a ih =>
    obtain ⟨y, b, rfl⟩ := List.exists_cons_of_length_eq_add_one hlen.symm
    have hlead : bitAt (x :: a) 0 = bitAt (y :: b) 0 := by
      rw [bitAt_zero_eq_decide, bitAt_zero_eq_decide, hlen, h]
    obtain rfl : x = y := hlead
    have htail : a.length = b.length := Nat.succ.inj hlen
    rw [val_cons, val_cons, htail] at h
    rw [ih htail (Nat.add_left_cancel h)]

/-- The most negative pattern, in numbers. -/
theorem two_mul_val_eq_iff (v : Bits) :
    2 * val v = 2 ^ v.length ↔ v = true :: zeros (v.length - 1) := by
  cases v with
  | nil => simp
  | cons b v =>
    have hmost : val (true :: zeros v.length) = 2 ^ v.length := by simp
    rw [List.length_cons, pow_succ, Nat.add_sub_cancel, Nat.mul_comm]
    constructor
    · intro h
      exact eq_of_val_eq (by simp) (by omega)
    · intro h
      rw [h, hmost]

/-! ## The negator -/

section
variable (v : Bits)

theorem val_flip_add : val (flip v) + val v + 1 = 2 ^ v.length := by
  induction v with
  | nil => rfl
  | cons b v ih =>
    rw [flip_cons, val_cons, val_cons, length_flip, List.length_cons, pow_succ]
    cases b <;> simp <;> omega

theorem val_one_succ (n : Nat) : val (one (n + 1)) = 1 := by
  rw [one, val_append, val_zeros]
  rfl

theorem neg_eq_addnc : neg v = addnc (flip v) (one v.length) := rfl

theorem val_neg : val (neg v) = (2 ^ v.length - val v) % 2 ^ v.length := by
  cases v with
  | nil => rfl
  | cons b v =>
    have hflip := val_flip_add (b :: v)
    rw [neg_eq_addnc, val_addnc, width, length_flip, length_one, Nat.max_self, List.length_cons,
      val_one_succ]
    rw [List.length_cons] at hflip
    congr 1
    omega

variable {v}

theorem neg_eq_self_of_val_eq_zero (h : val v = 0) : neg v = v :=
  eq_of_val_eq (length_neg v) (by rw [val_neg, h, Nat.sub_zero, Nat.mod_self])

theorem val_neg_add_of_pos (h : 0 < val v) : val (neg v) + val v = 2 ^ v.length := by
  have hlt := val_lt v
  rw [val_neg, Nat.mod_eq_of_lt (by omega)]
  omega

theorem neg_neg_eq_self (v : Bits) : neg (neg v) = v := by
  obtain hzero | hpos := Nat.eq_zero_or_pos (val v)
  · rw [neg_eq_self_of_val_eq_zero hzero, neg_eq_self_of_val_eq_zero hzero]
  · have hlt := val_lt v
    have hsum := val_neg_add_of_pos hpos
    have hsum' := val_neg_add_of_pos (v := neg v) (by omega)
    rw [length_neg] at hsum'
    exact eq_of_val_eq (by simp) (by omega)

theorem neg_eq_self_of_most_negative (n : Nat) : neg (true :: zeros n) = true :: zeros n := by
  have htwice := (two_mul_val_eq_iff (true :: zeros n)).mpr (by simp)
  have hpow := Nat.two_pow_pos (true :: zeros n).length
  have hsum := val_neg_add_of_pos (v := true :: zeros n) (by omega)
  exact eq_of_val_eq (length_neg _) (by omega)

/-- Of two positive values that add up to `2^len`, one is below the half and one above it, unless both are
the half: the most negative pattern. -/
theorem sval_neg (h : v ≠ true :: zeros (v.length - 1)) : sval (neg v) = - sval v := by
  have hhalf := mt (two_mul_val_eq_iff v).mp h
  have hlt := val_lt v
  obtain hzero | hpos := Nat.eq_zero_or_pos (val v)
  · have hpow : ¬ 2 ^ v.length ≤ 2 * val v := by omega
    rw [neg_eq_self_of_val_eq_zero hzero, sval_eq_ite, if_neg hpow, hzero]
    rfl
  · have hsum := val_neg_add_of_pos hpos
    have hsumInt : (val (neg v) : Int) + val v = 2 ^ v.length := mod_cast hsum
    rw [sval_eq_ite, sval_eq_ite, length_neg]
    split <;> split <;> omega

theorem bitAt_neg_zero_of_pos (hlead : bitAt v 0 = false) (hpos : 0 < val v) :
    bitAt (neg v) 0 = true := by
  have hsum := val_neg_add_of_pos hpos
  rw [bitAt_zero_eq_decide, decide_eq_false_iff_not] at hlead
  rw [bitAt_zero_eq_decide, length_neg, decide_eq_true_eq]
  omega

end

/-- Settles O19: each clause is the negator's lemma of that law. -/
theorem negationLaws : Obligations.NegationLaws :=
  ⟨fun v _ => ⟨length_neg v, val_neg v, sval_neg, neg_neg_eq_self v, bitAt_neg_zero_of_pos⟩,
    fun n => ⟨neg_eq_self_of_val_eq_zero (val_zeros (n + 1)), neg_eq_self_of_most_negative n⟩⟩

/-! ## The command -/

theorem exec_neg_held {rd ra : RegId} {s : State} {v : Bits} (h : s.reg ra = .held v) :
    exec (.neg rd ra) s = writeback rd (neg v) ((s.work.latchOne v).setCarry (negPass v).2) s :=
  withSource_held ra s _ v h

/-- Settles O35: the two outcomes of reading `ra`; the result is `neg v`. -/
theorem negResult : Obligations.NegResult := fun _ ra s =>
  ⟨fun h => faults_of_faulted (withSource_unwritten ra s _ h), fun v h =>
    ⟨neg v, completesWith_of_writeback (exec_neg_held h), length_neg v, val_neg v⟩⟩

end Sys2Proof.Machine
end

section
/-! PROOFS. The floor-at-zero subtractor and `SUB` (rules R100 to R103): the first difference of two vectors of
one length, read from the most-significant end, decides their order; in the pass the complement's `2^W` comes
out as the wrap exactly when the difference is not negative. -/

namespace Sys2Proof.Machine

/-! ## The comparator -/

/-- A leading bit outweighs everything behind it, so the first pair that differs decides. -/
theorem ltChain_iff {a b : Bits} (hlen : a.length = b.length) : ltChain a b = true ↔ val a < val b := by
  induction a generalizing b with
  | nil =>
    obtain rfl := List.length_eq_zero_iff.mp hlen.symm
    simp
  | cons x a ih =>
    obtain ⟨y, b, rfl⟩ := List.exists_cons_of_length_eq_add_one hlen.symm
    have htail : a.length = b.length := Nat.succ.inj hlen
    have ha : val a < 2 ^ b.length := htail ▸ val_lt a
    have hb := val_lt b
    rw [ltChain_cons, val_cons, val_cons, htail]
    cases x <;> cases y
    case false.false | true.true => simp [ih htail]
    case false.true => simp; omega
    case true.false => simp; omega

section
variable (a b : Bits)

theorem lt_iff_val_lt : lt a b = true ↔ val a < val b := by
  rw [lt, ltChain_iff (length_equalize_eq a b), val_equalize_left, val_equalize_right]

/-! ## The pass -/

theorem val_lt_two_pow_width : val a < 2 ^ width a b := by
  simpa using val_lt (equalize a b).1

theorem subPass_fst_eq_addnc : (subPass a b).1 = addnc (equalize a b).1 (neg (equalize a b).2.1) := rfl

theorem width_subPass_operands : width (equalize a b).1 (neg (equalize a b).2.1) = width a b := by
  rw [width, length_neg, length_equalize_left, length_equalize_right, Nat.max_self]

theorem carry_subPass :
    (subPass a b).2 = decide (2 ^ width a b ≤ val a + val (neg (equalize a b).2.1)) := by
  rw [subPass, carry_ripple, width_subPass_operands, val_equalize_left]

variable {a b}

theorem carry_subPass_of_pos (hpos : 0 < val b) : (subPass a b).2 = true ↔ val b ≤ val a := by
  have hsum := val_neg_add_of_pos (v := (equalize a b).2.1) (by rwa [val_equalize_right])
  rw [val_equalize_right, length_equalize_right] at hsum
  rw [carry_subPass, decide_eq_true_eq]
  omega

/-- A zero is its own negation: the pass adds nothing and no carry can leave it. -/
theorem carry_subPass_of_val_eq_zero (hzero : val b = 0) : (subPass a b).2 = false := by
  have hlt := val_lt_two_pow_width a b
  have hneg := neg_eq_self_of_val_eq_zero ((val_equalize_right a b).trans hzero)
  rw [carry_subPass, hneg, val_equalize_right, hzero, decide_eq_false_iff_not]
  omega

theorem val_subPass (hle : val b ≤ val a) : val (subPass a b).1 = val a - val b := by
  have ha := val_lt_two_pow_width a b
  calc val (subPass a b).1
      = (val a + (2 ^ width a b - val b)) % 2 ^ width a b := by
        rw [subPass_fst_eq_addnc, val_addnc, width_subPass_operands, val_neg, val_equalize_left,
          val_equalize_right, length_equalize_right, Nat.add_mod_mod]
    _ = (val a - val b + 2 ^ width a b) % 2 ^ width a b := by congr 1; omega
    _ = val a - val b := by rw [Nat.add_mod_right, Nat.mod_eq_of_lt (by omega)]

/-! ## `sub` -/

theorem sub_of_lt (hlt : val a < val b) : sub a b = [false] := if_pos ((lt_iff_val_lt a b).mpr hlt)

theorem sub_of_le (hle : val b ≤ val a) : sub a b = (subPass a b).1 :=
  if_neg (mt (lt_iff_val_lt a b).mp hle.not_gt)

theorem length_sub_of_le (hle : val b ≤ val a) : (sub a b).length = width a b := by
  rw [sub_of_le hle, length_subPass]

theorem val_sub_of_le (hle : val b ≤ val a) : val (sub a b) = val a - val b := by
  rw [sub_of_le hle, val_subPass hle]

theorem sub_of_val_eq (h : val a = val b) : sub a b = zeros (width a b) :=
  eq_of_val_eq (by rw [length_sub_of_le h.ge, length_zeros])
    (by rw [val_sub_of_le h.ge, h, Nat.sub_self, val_zeros])

theorem sub_of_val_right_eq_zero (hzero : val b = 0) : sub a b = (equalize a b).1 := by
  have hle : val b ≤ val a := by omega
  exact eq_of_val_eq (by rw [length_sub_of_le hle, length_equalize_left])
    (by rw [val_sub_of_le hle, hzero, Nat.sub_zero, val_equalize_left])

/-- The difference is no larger than the left operand, so below half of `2^W` when that is. -/
theorem bitAt_sub_zero (hle : val b ≤ val a) (hlead : bitAt (equalize a b).1 0 = false) :
    bitAt (sub a b) 0 = false := by
  rw [bitAt_zero_eq_decide, decide_eq_false_iff_not, length_equalize_left, val_equalize_left] at hlead
  rw [bitAt_zero_eq_decide, decide_eq_false_iff_not, length_sub_of_le hle, val_sub_of_le hle]
  omega

end

/-- Settles O20: the comparator's order, and the carry of the pass for a positive and for a zero right operand. -/
theorem comparatorExact : Obligations.ComparatorExact := fun a b =>
  ⟨lt_iff_val_lt a b, carry_subPass_of_pos, carry_subPass_of_val_eq_zero⟩

/-- Settles O21: each clause is the lemma of that case of `sub`. -/
theorem subtractionLaws : Obligations.SubtractionLaws := fun _ _ =>
  ⟨sub_of_lt, fun hle => ⟨length_sub_of_le hle, val_sub_of_le hle⟩, sub_of_val_eq,
    sub_of_val_right_eq_zero, bitAt_sub_zero⟩

/-! ## The command -/

theorem exec_sub_held {rd ra rb : RegId} {s : State} {a b : Bits} (ha : s.reg ra = .held a)
    (hb : s.reg rb = .held b) :
    exec (.sub rd ra rb) s =
      writeback rd (sub a b) ((s.work.latch a b).setCarry (subCarry a b s.work.carry)) s :=
  withSources_held ra rb s _ a b ha hb

/-- Settles O36: the outcomes of reading the sources; the result is `sub a b`, floored or exact. -/
theorem subResult : Obligations.SubResult := by
  intro rd ra rb s
  refine ⟨fun h => faults_of_faulted (withSources_unwritten ra rb s _ h), fun a b ha hb => ?_⟩
  have hdone : CompletesWith (.sub rd ra rb) s rd (sub a b) :=
    completesWith_of_writeback (exec_sub_held ha hb)
  exact ⟨fun hlt => sub_of_lt hlt ▸ hdone,
    fun hle => ⟨sub a b, hdone, length_sub_of_le hle, val_sub_of_le hle⟩⟩

end Sys2Proof.Machine
end

section
/-! PROOFS. The arithmetic shifter and `ASR` (rules R107, R117): the shift drops the last bit and repeats the
first, and a repeated first bit leaves the signed value as it is. -/

namespace Sys2Proof.Machine

/-! ## Signed values -/

/-- Index 0 counts negatively. -/
theorem sval_eq_val_sub (v : Bits) :
    sval v = (val v : Int) - (bitAt v 0).toNat * 2 ^ v.length := by
  rw [sval]
  cases bitAt v 0 <;> simp

theorem sval_of_lead_false {v : Bits} (hlead : bitAt v 0 = false) : sval v = val v := by
  rw [sval, hlead, if_neg Bool.false_ne_true]

/-- A bit put in front turns the former sign into a weight and is the sign itself. -/
theorem sval_cons (x : Bool) (v : Bits) :
    sval (x :: v) = sval v + ((bitAt v 0).toNat - x.toNat : Int) * 2 ^ v.length := by
  rw [sval_eq_val_sub, sval_eq_val_sub, bitAt_zero_cons, val_cons, List.length_cons]
  push_cast
  ring

/-- Sign extension. -/
theorem sval_cons_bitAt_zero (v : Bits) : sval (bitAt v 0 :: v) = sval v := by
  rw [sval_cons, sub_self, zero_mul, add_zero]

theorem bitAt_zero_append {v : Bits} (hne : v ≠ []) (u : Bits) : bitAt (v ++ u) 0 = bitAt v 0 := by
  obtain ⟨b, v, rfl⟩ := List.exists_cons_of_ne_nil hne
  rfl

theorem sval_append_singleton {v : Bits} (hne : v ≠ []) (x : Bool) :
    sval (v ++ [x]) = 2 * sval v + x.toNat := by
  rw [sval_eq_val_sub, sval_eq_val_sub, bitAt_zero_append hne, val_append, List.length_append]
  push_cast [List.length_singleton, val_cons, val_nil, List.length_nil]
  ring

/-! ## The shifter -/

theorem asr_append_singleton {v : Bits} (hne : v ≠ []) (x : Bool) :
    asr (v ++ [x]) = bitAt v 0 :: v := by
  obtain ⟨b, v, rfl⟩ := List.exists_cons_of_ne_nil hne
  rw [List.cons_append, asr, ← List.cons_append, List.dropLast_concat, bitAt_zero_cons]

theorem asr_of_length_eq_one {p : Bits} (h : p.length = 1) : asr p = p := by
  obtain ⟨x, rfl⟩ := List.length_eq_one_iff.mp h
  rfl

theorem getElem?_asr_zero (p : Bits) : (asr p)[0]? = p[0]? := by
  cases p <;> rfl

theorem getElem?_asr {p : Bits} {i : Nat} (hpos : 1 ≤ i) (hlt : i < p.length) :
    (asr p)[i]? = p[i - 1]? := by
  obtain ⟨k, rfl⟩ := Nat.exists_eq_add_of_le' hpos
  cases p with
  | nil => rfl
  | cons b v =>
    rw [asr, List.getElem?_cons_succ, List.getElem?_dropLast, if_pos (Nat.lt_sub_of_add_lt hlt),
      Nat.add_sub_cancel]

/-- The dropped bit is the remainder of the floored half; at length 1 the sign is all there is. -/
theorem sval_asr (p : Bits) : sval (asr p) = sval p / 2 := by
  obtain rfl | ⟨v, x, rfl⟩ := p.eq_nil_or_concat'
  · rfl
  · obtain rfl | hne := eq_or_ne v []
    · cases x <;> rfl
    · have hbit := x.toNat_lt
      rw [asr_append_singleton hne, sval_cons_bitAt_zero, sval_append_singleton hne]
      omega

/-- With a leading zero the signed value is the value. -/
theorem val_asr {p : Bits} (hlead : bitAt p 0 = false) : val (asr p) = val p / 2 := by
  have hlead' : bitAt (asr p) 0 = false := by
    rw [← hlead, bitAt, bitAt, List.getD, List.getD, getElem?_asr_zero]
  have hhalf := sval_asr p
  rw [sval_of_lead_false hlead, sval_of_lead_false hlead'] at hhalf
  exact mod_cast hhalf

/-- Settles O22: each clause is the shifter's lemma of that law. -/
theorem shiftLaws : Obligations.ShiftLaws := fun p _ =>
  ⟨length_asr p, getElem?_asr_zero p, fun _ => getElem?_asr, sval_asr p, asr_of_length_eq_one⟩

/-! ## The command -/

theorem exec_asr_held {rd ra : RegId} {s : State} {p : Bits} (h : s.reg ra = .held p) :
    exec (.asr rd ra) s = writeback rd (asr p) (s.work.latchOne p) s :=
  withSource_held ra s _ p h

/-- Settles O38: the two outcomes of reading `ra`; the result is `asr p`. -/
theorem shiftResult : Obligations.ShiftResult := fun _ ra s =>
  ⟨fun h => faults_of_faulted (withSource_unwritten ra s _ h), fun p h =>
    ⟨asr p, completesWith_of_writeback (exec_asr_held h), length_asr p, getElem?_asr_zero p,
      fun _ => getElem?_asr, val_asr, asr_of_length_eq_one⟩⟩

end Sys2Proof.Machine
end

section
/-! PROOFS. The Booth registers during a `MUL` (rules R108 to R112, R118, R120): after `j` cycles `P` is a field
of `n + j` bits, the multiplier bits not yet consumed, and the last consumed one; a cycle adds to the field alone
and moves one multiplier bit on. -/

namespace Sys2Proof.Machine

/-! ## An addition with zeros below -/

theorem rippleChain_zeros_right (c : Bits) : rippleChain c (zeros c.length) false = (c, false) := by
  induction c with
  | nil => rfl
  | cons x c ih =>
    rw [List.length_cons, zeros_succ, rippleChain_cons, ih]
    cases x <;> rfl

/-- Zeros added below produce no carry, so the positions above are added by themselves. -/
theorem rippleChain_append_zeros {a b : Bits} (hlen : a.length = b.length) (c : Bits) :
    rippleChain (a ++ c) (b ++ zeros c.length) false =
      ((rippleChain a b false).1 ++ c, (rippleChain a b false).2) := by
  induction a generalizing b with
  | nil =>
    obtain rfl := List.length_eq_zero_iff.mp hlen.symm
    exact rippleChain_zeros_right c
  | cons x a ih =>
    obtain ⟨y, b, rfl⟩ := List.exists_cons_of_length_eq_add_one hlen.symm
    rw [List.cons_append, List.cons_append, rippleChain_cons, ih (Nat.succ.inj hlen), rippleChain_cons,
      List.cons_append]

theorem addnc_eq_rippleChain {a b : Bits} (hlen : a.length = b.length) :
    addnc a b = (rippleChain a b false).1 := by
  rw [addnc, ripple, equalize_same a b hlen]

theorem addnc_append_zeros {a b c : Bits} {k : Nat} (hlen : a.length = b.length) (hk : c.length = k) :
    addnc (a ++ c) (b ++ zeros k) = addnc a b ++ c := by
  subst hk
  rw [addnc_eq_rippleChain (by simp [hlen]), rippleChain_append_zeros hlen, addnc_eq_rippleChain hlen]

/-! ## The registers between two cycles -/

/-- The Booth registers for the multiplicand `x` when the multiplier bits `used` were consumed and `rest` were
not, with `field` in the upper part of `P`. -/
structure BoothAt (x rest used field : Bits) (t : Working) : Prop where
  n_eq : t.n = x.length
  regA_eq : t.regA = x ++ zeros (x.length + 1)
  regS_eq : t.regS = neg x ++ zeros (x.length + 1)
  regP_eq : t.regP = field ++ (rest ++ [bitAt used 0])
  length_multiplier : rest.length + used.length = x.length
  length_field : field.length = x.length + used.length

section
variable {x rest used field : Bits} {t : Working}

theorem BoothAt.length_regP (h : BoothAt x rest used field t) : t.regP.length = 2 * x.length + 1 := by
  have hlen := h.length_multiplier
  rw [h.regP_eq, List.length_append, List.length_append, h.length_field, List.length_singleton]
  omega

theorem BoothAt.getElem?_regP_rest (h : BoothAt x rest used field t) {i : Nat} (hi : i < rest.length) :
    t.regP[x.length + used.length + i]? = rest[i]? := by
  rw [h.regP_eq, ← h.length_field, List.getElem?_append_right (Nat.le_add_right _ _),
    Nat.add_sub_cancel_left, List.getElem?_append_left hi]

theorem BoothAt.getElem?_regP_last (h : BoothAt x rest used field t) :
    t.regP[2 * x.length]? = some (bitAt used 0) := by
  have hlen := h.length_multiplier
  have hlast : 2 * x.length = (field ++ rest).length := by
    rw [List.length_append, h.length_field]
    omega
  rw [h.regP_eq, hlast, ← List.append_assoc, List.getElem?_concat_length]

/-- A cycle's addition: its right operand has zeros below the accumulator, the first `n` positions of `P`. -/
theorem BoothAt.addnc_regP (h : BoothAt x rest used field t) {a : Bits} (ha : a.length = x.length) :
    addnc t.regP (a ++ zeros (x.length + 1)) =
      addnc (t.regP.take x.length) a ++ t.regP.drop x.length := by
  have hlen := h.length_regP
  have hsplit := addnc_append_zeros (a := t.regP.take x.length) (b := a) (c := t.regP.drop x.length)
    (k := x.length + 1) (by simp; omega) (by simp; omega)
  rwa [List.take_append_drop] at hsplit

end

section
variable {w : Working} {x y : Bits} {n : Nat}

/-- Both equalised operands have the working width. -/
theorem length_of_equalize_eq {a b : Bits} (he : equalize a b = (x, y, n)) :
    x.length = n ∧ y.length = n := by
  obtain ⟨rfl, rfl, rfl⟩ : (equalize a b).1 = x ∧ (equalize a b).2.1 = y ∧ (equalize a b).2.2 = n := by
    simp [he]
  exact ⟨length_equalize_left a b, length_equalize_right a b⟩

theorem boothAt_boothInit (he : equalize w.latchX w.latchY = (x, y, n)) :
    BoothAt x y [] (zeros x.length) (boothInit w) := by
  obtain ⟨hx, hy⟩ := length_of_equalize_eq he
  constructor <;> simp [boothInit, he, hx, hy, bitAt]

end

/-! ## One cycle -/

/-- What the action of a cycle makes of the upper field of `P`: the multiplicand `x` stands `j` positions above
the field's least-significant end. -/
def boothField (act : BoothAction) (x : Bits) (j : Nat) (field : Bits) : Bits :=
  match act with
  | .hold => field
  | .addA => addnc field (x ++ zeros j)
  | .addS => addnc field (neg x ++ zeros j)

theorem length_boothField {x field : Bits} {j : Nat} (hlen : field.length = x.length + j)
    (act : BoothAction) : (boothField act x j field).length = x.length + j := by
  cases act <;> simp [boothField, width, hlen]

theorem bitAt_of_getElem? {v : Bits} {i : Nat} {b : Bool} (h : v[i]? = some b) : bitAt v i = b := by
  rw [bitAt, List.getD, h, Option.getD_some]

section
variable {x rest used field : Bits} {b : Bool} {t : Working}

/-- The pair of low bits of `P`: the multiplier bit to be consumed and the last consumed one. -/
theorem BoothAt.selected_eq (h : BoothAt x (rest ++ [b]) used field t) :
    boothSelected t = boothSelect b (bitAt used 0) := by
  have hlen := h.length_multiplier
  rw [List.length_append, List.length_singleton] at hlen
  have hindex : x.length + used.length + rest.length = 2 * x.length - 1 := by omega
  have hnext := h.getElem?_regP_rest (i := rest.length) (by simp)
  rw [hindex, List.getElem?_concat_length] at hnext
  rw [boothSelected, h.n_eq, bitAt_of_getElem? hnext, bitAt_of_getElem? h.getElem?_regP_last]

/-- Below the field stand zeros of `A` and `S`, so the action changes the field alone. -/
theorem BoothAt.regP_boothAct (h : BoothAt x rest used field t) :
    (boothAct t).regP =
      boothField (boothSelected t) x used.length field ++ (rest ++ [bitAt used 0]) := by
  have hbelow : (rest ++ [bitAt used 0]).length = rest.length + 1 := List.length_append
  have hzeros : zeros (x.length + 1) = zeros used.length ++ zeros (rest.length + 1) := by
    rw [← h.length_multiplier, zeros, zeros, zeros, List.replicate_append_replicate]
    congr 1
    omega
  unfold boothAct
  cases boothSelected t with
  | hold => exact h.regP_eq
  | addA =>
    rw [h.regP_eq, h.regA_eq, hzeros, ← List.append_assoc x]
    exact addnc_append_zeros (by simp [h.length_field]) hbelow
  | addS =>
    rw [h.regP_eq, h.regS_eq, hzeros, ← List.append_assoc (neg x)]
    exact addnc_append_zeros (by simp [h.length_field]) hbelow

/-- The field after a cycle: the action's, sign-extended by the shift. -/
def nextField (x used field : Bits) (b : Bool) : Bits :=
  let acted := boothField (boothSelect b (bitAt used 0)) x used.length field
  bitAt acted 0 :: acted

/-- A cycle consumes the least-significant of the remaining multiplier bits. -/
theorem boothAt_boothCycle (h : BoothAt x (rest ++ [b]) used field t) :
    BoothAt x rest (b :: used) (nextField x used field b) (boothCycle t) := by
  obtain ⟨hn, hA, hS, -⟩ := boothCycle_fixed t
  have hlen := h.length_multiplier
  rw [List.length_append, List.length_singleton] at hlen
  have hP := h.regP_boothAct
  have hlenActed := length_boothField h.length_field (boothSelected t)
  have hnext : nextField x used field b =
      let acted := boothField (boothSelected t) x used.length field
      bitAt acted 0 :: acted := by rw [h.selected_eq]; rfl
  generalize boothField (boothSelected t) x used.length field = acted at hP hlenActed hnext
  have hne : acted ≠ [] := List.ne_nil_of_length_pos (by omega)
  refine ⟨hn.trans h.n_eq, hA.trans h.regA_eq, hS.trans h.regS_eq, ?_, ?_, ?_⟩
  · calc asr (boothAct t).regP
        = asr (acted ++ (rest ++ [b]) ++ [bitAt used 0]) := by rw [hP, List.append_assoc acted]
      _ = bitAt acted 0 :: (acted ++ (rest ++ [b])) := by
          rw [asr_append_singleton (by simp), bitAt_zero_append hne]
      _ = nextField x used field b ++ (rest ++ [bitAt (b :: used) 0]) := by rw [hnext]; rfl
  · rw [List.length_cons, ← hlen]
    omega
  · rw [hnext, List.length_cons, hlenActed, List.length_cons, Nat.add_assoc]

end

/-! ## `j` cycles -/

theorem boothRun_succ (k : Nat) (t : Working) : boothRun (k + 1) t = boothCycle (boothRun k t) := by
  induction k generalizing t with
  | zero => rfl
  | succ k ih => exact ih (boothCycle t)

/-- The field after the multiplier bits `used`. -/
def fieldAfter (x : Bits) : Bits → Bits
  | [] => zeros x.length
  | b :: used => nextField x used (fieldAfter x used) b

section
variable {w : Working} {x y : Bits} {n : Nat}

/-- The registers after the cycles that consume the multiplier bits `used`. -/
theorem boothAt_boothRun {rest used : Bits}
    (he : equalize w.latchX w.latchY = (x, rest ++ used, n)) :
    BoothAt x rest used (fieldAfter x used) (boothRun used.length (boothInit w)) := by
  induction used generalizing rest with
  | nil => exact boothAt_boothInit (List.append_nil rest ▸ he)
  | cons b used ih =>
    rw [List.length_cons, boothRun_succ]
    exact boothAt_boothCycle (ih (he.trans (by rw [List.append_assoc]; rfl)))

theorem boothAt_boothRun_of_le {j : Nat} (he : equalize w.latchX w.latchY = (x, y, n)) (hj : j ≤ n) :
    BoothAt x (y.take (n - j)) (y.drop (n - j)) (fieldAfter x (y.drop (n - j)))
      (boothRun j (boothInit w)) := by
  obtain ⟨-, hy⟩ := length_of_equalize_eq he
  have hrun := boothAt_boothRun (he.trans (by rw [List.take_append_drop (n - j) y]))
  rwa [List.length_drop, hy, Nat.sub_sub_self hj] at hrun

/-- After all `n` cycles every multiplier bit is consumed. -/
theorem boothAt_multiply (he : equalize w.latchX w.latchY = (x, y, n)) :
    BoothAt x [] y (fieldAfter x y) (multiply w) := by
  obtain ⟨hx, hy⟩ := length_of_equalize_eq he
  have hcycles : (boothInit w).n = y.length := by
    rw [(boothAt_boothInit he).n_eq, hx, hy]
  rw [multiply, hcycles]
  exact boothAt_boothRun he

end

/-- Settles O26: the registers after `j` cycles are those for the last `j` multiplier bits. -/
theorem accumulatorField : Obligations.AccumulatorField := by
  intro w j e n t hj hn
  have hat : BoothAt e.1 (e.2.1.take (n - j)) (e.2.1.drop (n - j)) _ t := boothAt_boothRun_of_le rfl hj
  obtain ⟨hx, hy⟩ : e.1.length = n ∧ e.2.1.length = n := length_of_equalize_eq rfl
  have hrest : (e.2.1.take (n - j)).length = n - j := by rw [List.length_take, hy]; omega
  have hused : (e.2.1.drop (n - j)).length = j := by rw [List.length_drop, hy]; omega
  refine ⟨?_, ?_, fun i hi => ?_, fun hpos => ?_⟩
  · rw [hat.regA_eq, hat.addnc_regP rfl, hx]
  · rw [hat.regS_eq, hat.addnc_regP (length_neg _), hx]
  · have hbits := hat.getElem?_regP_rest (hi.trans_eq hrest.symm)
    rwa [hx, hused, List.getElem?_take_of_lt hi] at hbits
  · have hlast := hat.getElem?_regP_last
    rwa [hx, ← getElem?_eq_bitAt (hpos.trans_eq hused.symm), List.getElem?_drop, Nat.add_zero] at hlast

/-! ## The product vector -/

/-- The product is the whole field, with the zero on top. -/
theorem mul_eq_false_cons (m r : Bits) :
    mul m r = false :: fieldAfter (equalize m r).1 (equalize m r).2.1 := by
  have hat : BoothAt (equalize m r).1 [] (equalize m r).2.1 _ (multiply (Working.cleared.latch m r)) :=
    boothAt_multiply rfl
  have hfield := hat.length_field
  rw [← length_equalize_eq m r, ← Nat.two_mul] at hfield
  rw [mul, boothResult, hat.n_eq, hat.regP_eq, List.take_left' hfield]

theorem length_fieldAfter (x used : Bits) : (fieldAfter x used).length = x.length + used.length := by
  induction used with
  | nil => exact length_zeros x.length
  | cons b used ih =>
    rw [fieldAfter, nextField, List.length_cons, length_boothField ih, List.length_cons, Nat.add_assoc]

@[simp] theorem length_mul (m r : Bits) : (mul m r).length = 2 * width m r + 1 := by
  rw [mul_eq_false_cons, List.length_cons, length_fieldAfter, length_equalize_left,
    length_equalize_right, ← Nat.two_mul]

/-- Settles O25: the length of the field, and the zero on top of it. -/
theorem productShape : Obligations.ProductShape := by
  intro m r
  have hlen := length_mul m r
  refine ⟨hlen, hlen.le.trans (Nat.le_succ _), by rw [mul_eq_false_cons]; rfl, fun hle => ?_⟩
  have hlen' := length_mul (mul m r) r
  rw [width] at hlen hlen'
  omega

end Sys2Proof.Machine
end

section
/-! PROOFS. The value of a product (rules R113, R114): modulo `2^(n+j)` the cycles make the field after `j` of
them the multiplicand times the signed value of the `j` multiplier bits consumed, and that product is in the
signed range of the field, so it is the field's signed value. -/

namespace Sys2Proof.Machine

/-! ## Signed values modulo `2^len` -/

section
variable (v : Bits)

theorem val_modEq_sval : (val v : Int) ≡ sval v [ZMOD 2 ^ v.length] := by
  rw [sval_eq_val_sub, Int.modEq_iff_dvd, sub_sub_cancel_left]
  exact (dvd_mul_left _ _).neg_right

theorem neg_two_pow_le_two_mul_sval : -2 ^ v.length ≤ 2 * sval v := by
  have hcast : ((2 ^ v.length : Nat) : Int) = 2 ^ v.length := mod_cast rfl
  rw [sval_eq_ite]
  split <;> omega

theorem two_mul_sval_lt_two_pow : 2 * sval v < 2 ^ v.length := by
  have hcast : ((2 ^ v.length : Nat) : Int) = 2 ^ v.length := mod_cast rfl
  have hlt := val_lt v
  rw [sval_eq_ite]
  split <;> omega

variable {v}

theorem sval_zeros (n : Nat) : sval (zeros n) = 0 := by
  rw [sval_of_lead_false (by cases n <;> rfl), val_zeros]
  rfl

/-- The signed value is the one representative in the signed range. -/
theorem sval_eq_of_modEq {z : Int} (hmod : (val v : Int) ≡ z [ZMOD 2 ^ v.length])
    (hlow : -2 ^ v.length ≤ 2 * z) (hhigh : 2 * z < 2 ^ v.length) : sval v = z := by
  have hdvd := ((val_modEq_sval v).symm.trans hmod).dvd
  have hlow' := neg_two_pow_le_two_mul_sval v
  have hhigh' := two_mul_sval_lt_two_pow v
  have hzero := Int.eq_zero_of_abs_lt_dvd hdvd (abs_lt.mpr ⟨by omega, by omega⟩)
  omega

end

theorem val_addnc_modEq (a b : Bits) : (val (addnc a b) : Int) ≡ val a + val b [ZMOD 2 ^ width a b] := by
  rw [val_addnc]
  push_cast
  exact Int.mod_modEq _ _

theorem val_neg_modEq (v : Bits) : (val (neg v) : Int) ≡ -val v [ZMOD 2 ^ v.length] := by
  obtain hzero | hpos := Nat.eq_zero_or_pos (val v)
  · rw [neg_eq_self_of_val_eq_zero hzero, hzero]
    rfl
  · have hsum : (val (neg v) : Int) + val v = 2 ^ v.length := mod_cast val_neg_add_of_pos hpos
    rw [Int.modEq_iff_dvd, ← hsum]
    exact ⟨-1, by ring⟩

/-! ## The multiplicand -/

/-- What the registers `A` and `S` make of a multiplicand: its signed value, the most negative pattern, which
is its own negation, read as `+2^(n-1)`. -/
def boothMultiplicand (x : Bits) : Int :=
  if 2 * (val x : Int) ≤ 2 ^ x.length then val x else (val x : Int) - 2 ^ x.length

section
variable (x : Bits)

theorem val_modEq_boothMultiplicand : (val x : Int) ≡ boothMultiplicand x [ZMOD 2 ^ x.length] := by
  rw [boothMultiplicand]
  split
  case isTrue => rfl
  case isFalse => exact (Int.sub_modulus_modEq_iff.mpr rfl).symm

theorem neg_two_pow_lt_two_mul_boothMultiplicand : -2 ^ x.length < 2 * boothMultiplicand x := by
  have hpow : (0 : Int) < 2 ^ x.length := by positivity
  rw [boothMultiplicand]
  split <;> omega

theorem two_mul_boothMultiplicand_le_two_pow : 2 * boothMultiplicand x ≤ 2 ^ x.length := by
  have hlt : (val x : Int) < 2 ^ x.length := mod_cast val_lt x
  rw [boothMultiplicand]
  split <;> omega

variable {x}

theorem boothMultiplicand_of_lead_false (hlead : bitAt x 0 = false) : boothMultiplicand x = val x := by
  rw [bitAt_zero_eq_decide, decide_eq_false_iff_not] at hlead
  have hhalf : 2 * val x ≤ 2 ^ x.length := by omega
  exact if_pos (mod_cast hhalf)

end

/-! ## The field -/

/-- The addend stands `j` positions above the field's least-significant end. -/
theorem val_addnc_aligned {field a : Bits} {j : Nat} {z : Int} (hlen : field.length = a.length + j)
    (ha : (val a : Int) ≡ z [ZMOD 2 ^ a.length]) :
    (val (addnc field (a ++ zeros j)) : Int) ≡ val field + z * 2 ^ j [ZMOD 2 ^ field.length] := by
  have hwidth : width field (a ++ zeros j) = field.length := by simp [width, hlen]
  have hshift : (val (a ++ zeros j) : Int) ≡ z * 2 ^ j [ZMOD 2 ^ field.length] := by
    rw [val_append, val_zeros, length_zeros, Nat.add_zero, hlen, pow_add]
    push_cast
    exact ha.mul_right'
  exact (hwidth ▸ val_addnc_modEq field (a ++ zeros j)).trans (hshift.add_left _)

/-- The action adds the multiplicand once, takes it away once, or leaves the field, as the two bits differ. -/
theorem val_boothField {x field : Bits} {j : Nat} (hlen : field.length = x.length + j) (b last : Bool) :
    (val (boothField (boothSelect b last) x j field) : Int) ≡
      val field + boothMultiplicand x * ((last.toNat - b.toNat) * 2 ^ j) [ZMOD 2 ^ field.length] := by
  have hadd := val_addnc_aligned hlen (val_modEq_boothMultiplicand x)
  have hneg : (val (neg x) : Int) ≡ -boothMultiplicand x [ZMOD 2 ^ (neg x).length] := by
    rw [length_neg]
    exact (val_neg_modEq x).trans (val_modEq_boothMultiplicand x).neg
  have hsub := val_addnc_aligned (hlen.trans (by rw [length_neg])) hneg
  cases b <;> cases last
  case false.false | true.true => simp [boothSelect, boothField]
  case false.true => simpa [boothSelect, boothField] using hadd
  case true.false => simpa [boothSelect, boothField] using hsub

/-- `M * J` would need both factors at the same end of their ranges, and each range leaves one end out. -/
theorem mul_mem_signed_range {a s M J : Int} (ha : -M < a) (ha' : a ≤ M) (hs : -J ≤ s) (hs' : s < J) :
    -(M * J) ≤ a * s ∧ a * s < M * J := by
  constructor <;> nlinarith

theorem sval_fieldAfter (x used : Bits) : sval (fieldAfter x used) = boothMultiplicand x * sval used := by
  induction used with
  | nil => exact (sval_zeros x.length).trans (mul_zero _).symm
  | cons b used ih =>
    have hlen := length_fieldAfter x used
    have hacted := length_boothField hlen (boothSelect b (bitAt used 0))
    have hmod := (val_boothField hlen b (bitAt used 0)).trans
      ((val_modEq_sval (fieldAfter x used)).add_right _)
    rw [ih, ← mul_add, ← sval_cons, hlen, ← hacted] at hmod
    have hlow := neg_two_pow_le_two_mul_sval (b :: used)
    have hhigh := two_mul_sval_lt_two_pow (b :: used)
    rw [List.length_cons, pow_succ] at hlow hhigh
    obtain ⟨hrange, hrange'⟩ := mul_mem_signed_range (neg_two_pow_lt_two_mul_boothMultiplicand x)
      (two_mul_boothMultiplicand_le_two_pow x)
      (s := sval (b :: used)) (J := 2 ^ used.length) (by omega) (by omega)
    rw [← pow_add, ← hacted, mul_assoc] at hrange hrange'
    rw [fieldAfter, nextField, sval_cons_bitAt_zero]
    exact sval_eq_of_modEq hmod hrange hrange'

/-! ## The product -/

/-- The value of every product, with or without `MulPre`: the signed product modulo `2^(2n)`. -/
theorem val_mul (m r : Bits) :
    (val (mul m r) : Int) =
      boothMultiplicand (equalize m r).1 * sval (equalize m r).2.1 % 2 ^ (2 * width m r) := by
  have hlen : (fieldAfter (equalize m r).1 (equalize m r).2.1).length = 2 * width m r := by
    rw [length_fieldAfter, length_equalize_left, length_equalize_right, Nat.two_mul]
  have hlt := val_lt (fieldAfter (equalize m r).1 (equalize m r).2.1)
  have hmod := val_modEq_sval (fieldAfter (equalize m r).1 (equalize m r).2.1)
  rw [hlen] at hlt hmod
  rw [mul_eq_false_cons, val_cons, Bool.toNat_false, Nat.zero_mul, Nat.zero_add, ← sval_fieldAfter, ← hmod,
    Int.emod_eq_of_lt (Int.natCast_nonneg _) (mod_cast hlt)]

theorem mulPre_iff_equalize (m r : Bits) :
    mulPre m r = true ↔ bitAt (equalize m r).1 0 = false ∧ bitAt (equalize m r).2.1 0 = false := by
  simp [mulPre]

/-- A shorter operand is padded, so its own leading bit is no matter. -/
theorem bitAt_equalize_left_zero (a b : Bits) :
    bitAt (equalize a b).1 0 = false ↔ (b.length ≤ a.length → bitAt a 0 = false) := by
  by_cases hle : b.length ≤ a.length
  · have hw : width a b - a.length = 0 := by rw [width]; omega
    simp [equalize, hw, pad_zero, hle]
  · have hw : 1 ≤ width a b - a.length := by rw [width]; omega
    simp [equalize, bitAt_pad_zero a hw, hle]

theorem mulPre_iff (m r : Bits) :
    mulPre m r = true ↔
      (r.length ≤ m.length → bitAt m 0 = false) ∧ (m.length ≤ r.length → bitAt r 0 = false) := by
  rw [mulPre_iff_equalize, bitAt_equalize_left_zero, ← bitAt_equalize_left_zero r m, equalize_swap m r]

theorem bitAt_eq_false_of_val_lt {v : Bits} {i : Nat} (hi : i < v.length)
    (hval : val v < 2 ^ (v.length - 1 - i)) : bitAt v i = false := by
  have hindex : v.length - 1 - (v.length - 1 - i) = i := by omega
  rw [← hindex, ← lsb_eq_bitAt v _ (by omega), ← testBit_val]
  exact Nat.testBit_lt_two_pow hval

section
variable {m r : Bits}

/-- Both equalised operands are below half of `2^n`. -/
theorem four_mul_val_mul_val_lt (hpre : mulPre m r = true) : 4 * (val m * val r) < 2 ^ (2 * width m r) := by
  obtain ⟨hm, hr⟩ := (mulPre_iff_equalize m r).mp hpre
  rw [bitAt_zero_eq_decide, decide_eq_false_iff_not, length_equalize_left, val_equalize_left] at hm
  rw [bitAt_zero_eq_decide, decide_eq_false_iff_not, length_equalize_right, val_equalize_right] at hr
  calc 4 * (val m * val r) = 2 * val m * (2 * val r) := by ring
    _ < 2 ^ width m r * 2 ^ width m r := Nat.mul_lt_mul'' (by omega) (by omega)
    _ = 2 ^ (2 * width m r) := by rw [← pow_add, Nat.two_mul]

theorem val_mul_of_mulPre (hpre : mulPre m r = true) : val (mul m r) = val m * val r := by
  obtain ⟨hm, hr⟩ := (mulPre_iff_equalize m r).mp hpre
  have hlt := four_mul_val_mul_val_lt hpre
  have hmul := val_mul m r
  rw [boothMultiplicand_of_lead_false hm, sval_of_lead_false hr, val_equalize_left, val_equalize_right] at hmul
  rw [← Nat.mod_eq_of_lt (show val m * val r < 2 ^ (2 * width m r) by omega)]
  exact mod_cast hmul

theorem bitAt_mul_of_mulPre (hpre : mulPre m r = true) (hpos : 1 ≤ width m r) {i : Nat} (hi : i ≤ 2) :
    bitAt (mul m r) i = false := by
  have hlt := four_mul_val_mul_val_lt hpre
  have hpow : 2 ^ (2 * width m r) ≤ 2 ^ (2 * width m r - i) * 4 := by
    rw [show 4 = 2 ^ 2 from rfl, ← pow_add]
    exact Nat.pow_le_pow_right two_pos (by omega)
  refine bitAt_eq_false_of_val_lt (by rw [length_mul]; omega) ?_
  rw [length_mul, val_mul_of_mulPre hpre, Nat.add_sub_cancel]
  omega

end

theorem bitAt_fromNat_zero (n : Nat) : bitAt (fromNat n) 0 = false :=
  bitAt_of_getElem? (freshLeadingZero.2 n)

/-- Settles O23: the product of two numbers below half of `2^n` is below a quarter of `2^(2n)`, where the signed
product is the product. -/
theorem productLaw : Obligations.ProductLaw := by
  refine ⟨fun m r hm hr => ⟨mulPre_iff m r, fun hpre => ?_⟩, fun x y => ?_⟩
  · have hpos : 1 ≤ width m r := hm.trans (Nat.le_max_left _ _)
    exact ⟨length_mul m r, val_mul_of_mulPre hpre, bitAt_mul_of_mulPre hpre hpos (by omega),
      bitAt_mul_of_mulPre hpre hpos (by omega), bitAt_mul_of_mulPre hpre hpos le_rfl⟩
  · exact (mulPre_iff _ _).mpr ⟨fun _ => bitAt_fromNat_zero x, fun _ => bitAt_fromNat_zero y⟩

end Sys2Proof.Machine
end

section
/-! PROOFS. The faults of a command (60_exceptions.md): `faultOf` lists them by their causes, and a command takes
the fault listed or completes with the status as it was. A halted block takes no command and so no fault. -/

namespace Sys2Proof.Machine

/-! ## A command answers as `faultOf` lists -/

/-- The status fields are as they were, but for `BUSY`, which is 0 (rules R24, R137). -/
def KeepsStatus (s t : State) : Prop :=
  t.halted = s.halted ∧ t.fault = s.fault ∧ t.finfo = s.finfo ∧ t.busy = false

/-- The answer takes the one fault given, or with none completes and keeps the status. -/
def AnswersWith (s : State) (cause : Option Fault) (o : Result) : Prop :=
  match cause with
  | some f => o = .next (s.faulted f)
  | none => ∃ t, o = .next t ∧ KeepsStatus s t

@[simp] theorem answersWith_some {s : State} {f : Fault} {o : Result} :
    AnswersWith s (some f) o ↔ o = .next (s.faulted f) := Iff.rfl

theorem heldLength_of_held {s : State} {r : RegId} {v : Bits} (h : s.reg r = .held v) :
    heldLength s r = v.length := by
  simp [heldLength, h]

section
variable {s : State} {cause : Option Fault}

theorem answersWith_writeback (rd : RegId) (v : Bits) (w : Working) :
    AnswersWith s none (writeback rd v w s) := ⟨_, rfl, rfl, rfl, rfl, rfl⟩

theorem answersWith_outputVector (v : Bits) (w : Working) :
    AnswersWith s none (outputVector v w s) := ⟨_, rfl, rfl, rfl, rfl, rfl⟩

/-- A command that checks its result's length before it writes. -/
theorem answersWith_ite_writeback (c : Prop) [Decidable c] (f : Fault) (rd : RegId) (v : Bits) (w : Working) :
    AnswersWith s (if c then none else some f) (if c then writeback rd v w s else takeFault f s) := by
  split
  · exact answersWith_writeback rd v w
  · rfl

/-- The source of a one-operand command is its first cause of a fault. -/
theorem answersWith_withSource {r : RegId} {k : Bits → Result}
    (h : ∀ v, s.reg r = .held v → AnswersWith s cause (k v)) :
    AnswersWith s (if [r].any (fun q => s.reg q == .unwritten) then some .unwrittenRegister else cause)
      (withSource r s k) := by
  obtain ⟨hr, -⟩ | ⟨v, hr, e⟩ := withSource_cases r s k
  · simp [hr]
  · simpa [hr, e] using h v hr

/-- The sources of a two-operand command are its first causes of a fault. -/
theorem answersWith_withSources {ra rb : RegId} {k : Bits → Bits → Result}
    (h : ∀ a b, s.reg ra = .held a → s.reg rb = .held b → AnswersWith s cause (k a b)) :
    AnswersWith s (if [ra, rb].any (fun q => s.reg q == .unwritten) then some .unwrittenRegister else cause)
      (withSources ra rb s k) := by
  obtain ⟨hr, -⟩ | ⟨a, b, ha, hb, e⟩ := withSources_cases ra rb s k
  · simp [hr]
  · simpa [ha, hb, e] using h a b ha hb

/-- `LDV` reads no register: the two length checks of rule R134 are one cause. -/
theorem answersWith_execLdv (rd : RegId) :
    AnswersWith s (lengthFault (.ldv rd) s) (exec (.ldv rd) s) := by
  by_cases h : 1 ≤ s.port.din.length ∧ fits s.cfg s.port.din.length = true
  · rw [lengthFault, if_pos h, exec_ldv_of_fits h.1 h.2]
    exact answersWith_writeback rd _ _
  · rw [lengthFault, if_neg h]
    rw [not_and_or, not_le, Nat.lt_one_iff, Bool.not_eq_true] at h
    exact exec_ldv_of_badLength h

end

/-- WHICH FAULT A COMMAND TAKES (rule R137): the one `faultOf` lists, and with none it completes. -/
theorem exec_answersWith_faultOf (i : Instr) (s : State) : AnswersWith s (faultOf i s) (exec i s) := by
  cases i with
  | ldv rd => exact answersWith_execLdv rd
  | stv ra => exact answersWith_withSource fun v _ => answersWith_outputVector v _
  | pad rd n =>
    refine answersWith_withSource fun v hv => ?_
    simp only [lengthFault, heldLength_of_held hv]
    exact answersWith_ite_writeback _ _ rd _ _
  | mov rd ra | neg rd ra | asr rd ra =>
    exact answersWith_withSource fun _ _ => answersWith_writeback rd _ _
  | add rd ra rb | mul rd ra rb =>
    refine answersWith_withSources fun a b ha hb => ?_
    simp only [lengthFault, heldLength_of_held ha, heldLength_of_held hb, length_ripple, width]
    exact answersWith_ite_writeback _ _ rd _ _
  | and rd ra rb | or rd ra rb | xor rd ra rb | addnc rd ra rb | sub rd ra rb =>
    exact answersWith_withSources fun _ _ _ _ => answersWith_writeback rd _ _

section
variable {i : Instr} {s t : State} {f : Fault}

theorem exec_of_faultOf_eq_some (h : faultOf i s = some f) : exec i s = .next (s.faulted f) := by
  have hans := exec_answersWith_faultOf i s
  rwa [h] at hans

theorem exec_of_faultOf_eq_none (h : faultOf i s = none) :
    ∃ t, exec i s = .next t ∧ KeepsStatus s t := by
  have hans := exec_answersWith_faultOf i s
  rwa [h] at hans

theorem faultCode_inj {f g : Fault} : faultCode f = faultCode g ↔ f = g := by
  cases f <;> cases g <;> decide

/-- The code on record after a command tells which fault it took. -/
theorem exec_records_iff (hrun : s.halted = false) (hexec : exec i s = .next t) :
    (t.halted = true ∧ t.fault = faultCode f) ↔ faultOf i s = some f := by
  cases hcause : faultOf i s with
  | none =>
    obtain ⟨t', ht', hhalted, -⟩ := exec_of_faultOf_eq_none hcause
    obtain rfl : t' = t := Host.Outcome.next.inj (ht'.symm.trans hexec)
    simp [hhalted, hrun]
  | some g =>
    obtain rfl : s.faulted g = t :=
      Host.Outcome.next.inj ((exec_of_faultOf_eq_some hcause).symm.trans hexec)
    simp [faultCode_inj]

/-! ## The causes -/

theorem lengthFault_ne_unwrittenRegister : lengthFault i s ≠ some .unwrittenRegister := by
  cases i <;> simp [lengthFault]

theorem faultOf_eq_unwrittenRegister_iff :
    faultOf i s = some .unwrittenRegister ↔ ∃ r ∈ sources i, s.reg r = .unwritten := by
  simp [faultOf, lengthFault_ne_unwrittenRegister]

theorem faultOf_eq_lengthOverflow_iff :
    faultOf i s = some .lengthOverflow ↔
      (∀ r ∈ sources i, s.reg r ≠ .unwritten) ∧ lengthFault i s = some .lengthOverflow := by
  simp [faultOf, ite_eq_iff]

theorem fits_eq_false_iff {c : Config} {n : Nat} : fits c n = false ↔ ∃ k, c.maxLen = some k ∧ k < n := by
  unfold fits
  cases c.maxLen <;> simp

/-- The command is one of the three that lengthen a vector, and its result is longer than `k` bits (rule R133). -/
def Outgrows (i : Instr) (s : State) (k : Nat) : Prop :=
  (∃ rd n, i = .pad rd n ∧ k < heldLength s rd + n) ∨
    (∃ rd ra rb, i = .add rd ra rb ∧ k < max (heldLength s ra) (heldLength s rb) + 1) ∨
    (∃ rd ra rb, i = .mul rd ra rb ∧ k < 2 * max (heldLength s ra) (heldLength s rb) + 1)

theorem lengthFault_eq_lengthOverflow_iff :
    lengthFault i s = some .lengthOverflow ↔ ∃ k, s.cfg.maxLen = some k ∧ Outgrows i s k := by
  cases i with
  | pad rd n | add rd ra rb | mul rd ra rb => simp [lengthFault, Outgrows, fits_eq_false_iff]
  | ldv rd | stv ra | mov rd ra | neg rd ra | asr rd ra => simp [lengthFault, Outgrows]
  | and rd ra rb | or rd ra rb | xor rd ra rb | addnc rd ra rb | sub rd ra rb =>
    simp [lengthFault, Outgrows]

end

/-- Settles O41: a command records code 2 exactly when `faultOf` lists it, which is for an unwritten source. -/
theorem unwrittenSourceFaults : Obligations.UnwrittenSourceFaults := by
  refine fun i s => ⟨fun hsrc => ?_, fun hrun hwritten t hexec hhalted hcode => ?_⟩
  · exact faults_of_faulted (exec_of_faultOf_eq_some (faultOf_eq_unwrittenRegister_iff.mpr hsrc))
  · obtain ⟨r, hr, hunwritten⟩ :=
      faultOf_eq_unwrittenRegister_iff.mp ((exec_records_iff hrun hexec).mp ⟨hhalted, hcode⟩)
    exact hwritten r hr hunwritten

/-! ## Illegal words come first -/

theorem wordLegal_eq_false_iff (w : CmdWord) : wordLegal w = false ↔ ∃ e, decode w = .error e := by
  simp [decode_error_iff, wordLegal]

/-- Settles O42: an illegal word is not decoded; a decoded command answers as `faultOf` lists. -/
theorem faultPriority : Obligations.FaultPriority :=
  ⟨fun _ cmd _ _ hrun hidle hin hillegal =>
      step_of_illegal hrun hidle ((wordLegal_eq_false_iff cmd).mp hillegal) hin,
    fun _ _ => ⟨fun _ => exec_of_faultOf_eq_some, exec_of_faultOf_eq_none⟩⟩

/-! ## Results no longer than an operand -/

theorem length_sub_le (a b : Bits) : (sub a b).length ≤ width a b := by
  obtain hlt | hle := Nat.lt_or_ge (val a) (val b)
  · have hpos : width a b ≠ 0 := by
      intro hzero
      have hb := val_lt_two_pow_width b a
      rw [width_comm, hzero] at hb
      omega
    rw [sub_of_lt hlt]
    exact Nat.one_le_iff_ne_zero.mpr hpos
  · exact (length_sub_of_le hle).le

section
variable {rd ra rb : RegId} {s t : State}

/-- After a completed write the destination is as long as the result. -/
theorem heldLength_of_writeback {v : Bits} {w : Working} (h : writeback rd v w s = .next t) :
    heldLength t rd = v.length := by
  obtain rfl := Host.Outcome.next.inj h
  exact heldLength_of_held (by simp)

theorem withSource_length_le {g : Bits → Bits} {w : Bits → Working} (hg : ∀ v, (g v).length ≤ v.length)
    (hexec : withSource ra s (fun v => writeback rd (g v) (w v) s) = .next t) (hdone : t.halted = false) :
    ∃ r ∈ [ra], heldLength t rd ≤ heldLength s r := by
  obtain ⟨-, e⟩ | ⟨v, hv, e⟩ := withSource_cases ra s fun v => writeback rd (g v) (w v) s
  · obtain rfl := Host.Outcome.next.inj (e.symm.trans hexec)
    exact absurd hdone (by simp)
  · refine ⟨ra, by simp, ?_⟩
    rw [heldLength_of_writeback (e.symm.trans hexec), heldLength_of_held hv]
    exact hg v

theorem withSources_length_le {g : Bits → Bits → Bits} {w : Bits → Bits → Working}
    (hg : ∀ a b, (g a b).length ≤ width a b)
    (hexec : withSources ra rb s (fun a b => writeback rd (g a b) (w a b) s) = .next t)
    (hdone : t.halted = false) : ∃ r ∈ [ra, rb], heldLength t rd ≤ heldLength s r := by
  obtain ⟨-, e⟩ | ⟨a, b, ha, hb, e⟩ := withSources_cases ra rb s fun a b => writeback rd (g a b) (w a b) s
  · obtain rfl := Host.Outcome.next.inj (e.symm.trans hexec)
    exact absurd hdone (by simp)
  · have hle := hg a b
    rw [← heldLength_of_writeback (e.symm.trans hexec), width, le_max_iff, ← heldLength_of_held ha,
      ← heldLength_of_held hb] at hle
    simpa using hle

/-- Outside `LDV`, which reads no register, and the three commands that lengthen a vector (rule R133). -/
theorem exec_length_le {i : Instr} (hldv : ∀ rd, i ≠ .ldv rd) (hpad : ∀ rd n, i ≠ .pad rd n)
    (hadd : ∀ rd ra rb, i ≠ .add rd ra rb) (hmul : ∀ rd ra rb, i ≠ .mul rd ra rb)
    (hexec : exec i s = .next t) (hdone : t.halted = false) (hdest : destination i = some rd) :
    ∃ r ∈ sources i, heldLength t rd ≤ heldLength s r := by
  cases i with
  | ldv rd' => exact absurd rfl (hldv rd')
  | pad rd' n => exact absurd rfl (hpad rd' n)
  | add rd' ra rb => exact absurd rfl (hadd rd' ra rb)
  | mul rd' ra rb => exact absurd rfl (hmul rd' ra rb)
  | stv ra => cases hdest
  | mov rd' ra =>
    cases hdest
    exact withSource_length_le (fun _ => le_rfl) hexec hdone
  | neg rd' ra =>
    cases hdest
    exact withSource_length_le (fun v => (length_neg v).le) hexec hdone
  | asr rd' ra =>
    cases hdest
    exact withSource_length_le (fun p => (length_asr p).le) hexec hdone
  | and rd' ra rb =>
    cases hdest
    exact withSources_length_le (fun a b => (length_andVec a b).trans_le (le_max_left _ _)) hexec hdone
  | or rd' ra rb =>
    cases hdest
    exact withSources_length_le (fun a b => (length_orVec a b).trans_le (le_max_left _ _)) hexec hdone
  | xor rd' ra rb =>
    cases hdest
    exact withSources_length_le (fun a b => (length_xorVec a b).trans_le (le_max_left _ _)) hexec hdone
  | addnc rd' ra rb =>
    cases hdest
    exact withSources_length_le (fun a b => (length_addnc a b).le) hexec hdone
  | sub rd' ra rb =>
    cases hdest
    exact withSources_length_le length_sub_le hexec hdone

end

/-- Settles O44: a command records code 4 exactly when `faultOf` lists it, which is for the three growing
commands beyond a finite `MAXLEN`; the results of the others are bounded command by command. -/
theorem overflowExactly : Obligations.OverflowExactly := by
  refine fun i s t hrun hexec => ⟨?_, fun hldv hpad hadd hmul hdone rd hdest =>
    exec_length_le hldv hpad hadd hmul hexec hdone hdest⟩
  calc (t.halted = true ∧ t.fault = 4)
      ↔ faultOf i s = some .lengthOverflow := exec_records_iff (f := .lengthOverflow) hrun hexec
    _ ↔ (∀ r ∈ sources i, s.reg r ≠ .unwritten) ∧ lengthFault i s = some .lengthOverflow :=
        faultOf_eq_lengthOverflow_iff
    _ ↔ _ := and_congr_right' lengthFault_eq_lengthOverflow_iff

/-! ## The halted block -/

theorem step_of_halted {cmd : CmdWord} {din : Bits} {rest : List HostEvent} {s : State}
    (hh : s.halted = true) (hin : s.inputs = .command cmd din :: rest) : step s = .next (s.ignore rest) := by
  simpa [hin, hh] using step_cases s

theorem runEvents_of_halted (cs : List (CmdWord × Bits)) {s : State} (hh : s.halted = true) :
    runEvents (cs.map fun c => .command c.1 c.2) s = .next (s.withInputs []) := by
  induction cs with
  | nil => rfl
  | cons c cs ih =>
    calc runEvents (.command c.1 c.2 :: cs.map fun c => .command c.1 c.2) s
        = andThen (step (s.withInputs [.command c.1 c.2])) (runEvents _) := runEvents_cons _ _ s
      _ = andThen (.next (s.withInputs [])) (runEvents _) := by
          rw [step_of_halted (s := s.withInputs [.command c.1 c.2]) hh rfl]
          rfl
      _ = runEvents (cs.map fun c => .command c.1 c.2) s := rfl
      _ = .next (s.withInputs []) := ih

/-- Settles O45: each command of the list is ignored, by induction on the list. -/
theorem haltedIgnoresCommands : Obligations.HaltedIgnoresCommands := fun cs s hh =>
  ⟨runEvents_of_halted cs hh, by simp [Succeeded, hh]⟩

/-- Settles O46: a step of a halted block waits, resets, or ignores a command. -/
theorem onlyResetClearsHalted : Obligations.OnlyResetClearsHalted := by
  intro s t hstep hh
  obtain ⟨-, e⟩ | ⟨rest, hin, e⟩ | ⟨cmd, din, rest, hin, -⟩ := step_cases s
  · obtain rfl := Host.Outcome.next.inj (e.symm.trans hstep)
    simp [hh]
  · obtain rfl := Host.Outcome.next.inj (e.symm.trans hstep)
    simp [hin]
  · obtain rfl := Host.Outcome.next.inj ((step_of_halted hh hin).symm.trans hstep)
    simp [hh]

end Sys2Proof.Machine
end

section
/-! PROOFS. Encoding and decoding are inverse (30_encoding.md sections 1 to 3): a word is its four fields, and a
command's word holds in each field what the decoder reads there. -/

namespace Sys2Proof.Machine

/-! ## The registers and the count of a word -/

theorem regBits_regField (w : CmdWord) (lo : Nat) : regBits (regField w lo) = nibble w lo := rfl

theorem val_regField (w : CmdWord) (lo : Nat) : (regField w lo).val = w.toNat / 2 ^ lo % 16 :=
  toNat_nibble w lo

section
variable (a b c d : BitVec 4) (r : RegId)

@[simp] theorem regField_wordOf_8 : regField (wordOf a (regBits r) c d) 8 = r := by
  rw [regField, nibble_wordOf_8, regBits, BitVec.toFin_ofFin]

@[simp] theorem regField_wordOf_4 : regField (wordOf a b (regBits r) d) 4 = r := by
  rw [regField, nibble_wordOf_4, regBits, BitVec.toFin_ofFin]

@[simp] theorem regField_wordOf_0 : regField (wordOf a b c (regBits r)) 0 = r := by
  rw [regField, nibble_wordOf_0, regBits, BitVec.toFin_ofFin]

end

theorem wordOf_nibbles (w : CmdWord) :
    wordOf (nibble w 12) (nibble w 8) (nibble w 4) (nibble w 0) = w := by
  simp [eq_iff_nibbles]

theorem toNat_lowByte (w : CmdWord) : (lowByte w).toNat = w.toNat % 256 := by simp [lowByte]

/-- `PAD`'s word in numbers: the count stands in the low byte as it is (rule R42). -/
theorem toNat_encode_pad (rd : RegId) (n : Nat) :
    (encode (.pad rd n)).toNat = 0x4000 + rd.val * 256 + n % 256 := by
  have h : (encode (.pad rd n)).toNat = (0x4#4 ++ regBits rd ++ BitVec.ofNat 8 n).toNat := rfl
  rw [h, BitVec.toNat_append, ← Nat.shiftLeft_add_eq_or_of_lt (BitVec.ofNat 8 n).isLt, toNat_append_nibble,
    Nat.shiftLeft_eq, BitVec.toNat_ofNat, BitVec.toNat_ofNat, regBits, BitVec.toNat_ofFin]
  omega

/-! ## Decoding a command's word -/

theorem decodeRR_wordOf (make : RegId → RegId → Instr) (op : BitVec 4) (rd ra : RegId) :
    decodeRR make (wordOf op (regBits rd) (regBits ra) 0#4) = .ok (make rd ra) := by
  simp [decodeRR, requireZero]

theorem decodeRRR_wordOf (make : RegId → RegId → RegId → Instr) (op : BitVec 4) (rd ra rb : RegId) :
    decodeRRR make (wordOf op (regBits rd) (regBits ra) (regBits rb)) = .ok (make rd ra rb) := by
  simp [decodeRRR]

theorem decode_encode_pad (rd : RegId) {n : Nat} (hn : n ≤ 255) :
    decode (encode (.pad rd n)) = .ok (.pad rd n) := by
  have hw := toNat_encode_pad rd n
  have hrd := rd.isLt
  have hop : (nibble (encode (.pad rd n)) 12).toNat = 4 := by rw [toNat_nibble]; omega
  have hreg : regField (encode (.pad rd n)) 8 = rd := Fin.ext (by rw [val_regField]; omega)
  have hcount : (lowByte (encode (.pad rd n))).toNat = n := by rw [toNat_lowByte]; omega
  simp only [decode, hop, hreg, hcount]

/-- The decoder reads from a command's word what the encoder put there. -/
theorem decode_encode {i : Instr} (hi : i.wellFormed = true) : decode (encode i) = .ok i := by
  cases i with
  | pad rd n => exact decode_encode_pad rd (of_decide_eq_true hi)
  | ldv rd => simp [encode, decode, requireZero, lowByte_eq_zero_iff]
  | stv ra => simp [encode, decode, requireZero]
  | mov rd ra | neg rd ra | asr rd ra => simp [encode, decode, decodeRR_wordOf]
  | and rd ra rb | or rd ra rb | xor rd ra rb | add rd ra rb | addnc rd ra rb | sub rd ra rb
  | mul rd ra rb => simp [encode, decode, decodeRRR_wordOf]

/-- Settles O1: `decode_encode`. -/
theorem decodeOfEncode : Obligations.DecodeOfEncode := fun _ => decode_encode

/-- Settles O5: the word is the encoder's word of the command. -/
theorem padCountUnsigned : Obligations.PadCountUnsigned := by
  intro rd n hn
  have hrd := rd.isLt
  have hword : BitVec.ofNat 16 (0x4000 + rd.val * 256 + n) = encode (.pad rd n) := by
    rw [← BitVec.toNat_inj, toNat_encode_pad, BitVec.toNat_ofNat]
    omega
  rw [hword, decode_encode_pad rd hn]

/-- Settles O6: each word is decoded. -/
theorem workedEncodings : Obligations.WorkedEncodings :=
  ⟨rfl, rfl, rfl, rfl, rfl, rfl, rfl, rfl, rfl, rfl, rfl, rfl, rfl, rfl, rfl, rfl, rfl, rfl⟩

/-! ## Encoding what was decoded -/

/-- The command is well formed and `w` is its word. -/
def EncodesTo (i : Instr) (w : CmdWord) : Prop := i.wellFormed = true ∧ encode i = w

section
variable {w : CmdWord} {i : Instr} {n : Nat}

/-- A word of the opcode `n` is the word of four fields, its own. -/
theorem wordOf_opcode (hop : (nibble w 12).toNat = n) :
    wordOf (BitVec.ofNat 4 n) (nibble w 8) (nibble w 4) (nibble w 0) = w := by
  rw [← hop, BitVec.ofNat_toNat, BitVec.setWidth_eq, wordOf_nibbles]

theorem encodesTo_of_decodeRR {make : RegId → RegId → Instr} (hop : (nibble w 12).toNat = n)
    (hmake : ∀ rd ra, EncodesTo (make rd ra) (wordOf (BitVec.ofNat 4 n) (regBits rd) (regBits ra) 0))
    (h : decodeRR make w = .ok i) : EncodesTo i w := by
  rw [decodeRR, requireZero_eq_ok, beq_iff_eq] at h
  obtain ⟨hzero, rfl⟩ := h
  have hcmd := hmake (regField w 8) (regField w 4)
  rwa [regBits_regField, regBits_regField, ← hzero, wordOf_opcode hop] at hcmd

theorem encodesTo_of_decodeRRR {make : RegId → RegId → RegId → Instr} (hop : (nibble w 12).toNat = n)
    (hmake : ∀ rd ra rb, EncodesTo (make rd ra rb)
      (wordOf (BitVec.ofNat 4 n) (regBits rd) (regBits ra) (regBits rb)))
    (h : decodeRRR make w = .ok i) : EncodesTo i w := by
  obtain rfl := Except.ok.inj h
  have hcmd := hmake (regField w 8) (regField w 4) (regField w 0)
  rwa [regBits_regField, regBits_regField, regBits_regField, wordOf_opcode hop] at hcmd

theorem encodesTo_pad (hop : (nibble w 12).toNat = 4) :
    EncodesTo (.pad (regField w 8) (lowByte w).toNat) w := by
  have hlt := (lowByte w).isLt
  have hw := w.isLt
  rw [toNat_nibble] at hop
  refine ⟨decide_eq_true (Nat.le_of_lt_succ hlt), BitVec.toNat_inj.mp ?_⟩
  rw [toNat_encode_pad, val_regField, toNat_lowByte]
  omega

end

/-- No bit of a legal word is ignored: the fields the decoder reads and those it requires to be zero are all. -/
theorem encodesTo_of_decode {w : CmdWord} {i : Instr} (h : decode w = .ok i) : EncodesTo i w := by
  unfold decode at h
  split at h <;> rename_i hop
  case h_1 =>
    rw [requireZero_eq_ok, beq_iff_eq] at h
    obtain ⟨hzero, rfl⟩ := h
    obtain ⟨h4, h0⟩ := (lowByte_eq_zero_iff w).mp hzero
    have hw := wordOf_opcode hop
    rw [h4, h0] at hw
    exact ⟨rfl, hw⟩
  case h_2 =>
    rw [requireZero_eq_ok, Bool.and_eq_true, beq_iff_eq, beq_iff_eq] at h
    obtain ⟨⟨h8, h0⟩, rfl⟩ := h
    have hw := wordOf_opcode hop
    rw [h8, h0] at hw
    exact ⟨rfl, hw⟩
  case h_4 =>
    obtain rfl := Except.ok.inj h
    exact encodesTo_pad hop
  case h_3 | h_10 | h_13 => exact encodesTo_of_decodeRR hop (fun _ _ => ⟨rfl, rfl⟩) h
  case h_5 | h_6 | h_7 | h_8 | h_9 | h_11 | h_12 =>
    exact encodesTo_of_decodeRRR hop (fun _ _ _ => ⟨rfl, rfl⟩) h
  case h_14 => cases h

/-- Settles O2: `encodesTo_of_decode`. -/
theorem encodeOfDecode : Obligations.EncodeOfDecode := fun _ _ => encodesTo_of_decode

end Sys2Proof.Machine
end

section
/-! PROOFS. What a step changes (10_state.md, 60_exceptions.md sections 1 and 3, 70_reset_and_hazards.md section 1):
the frame of a command, and the steps that wait, reset, or take a fault. -/

namespace Sys2Proof.Machine

/-! ## The frame of a command -/

theorem exec_total (i : Instr) (s : State) : ∃ t, exec i s = .next t := by
  obtain ⟨f, e⟩ | ⟨rd, v, w, -, e⟩ | ⟨ra, v, w, -, -, e⟩ := exec_cases i s <;> exact ⟨_, e⟩

/-- Settles O51: a fault, a register write and a write of `DOUT`, each field by field. -/
theorem commandFrame : Obligations.CommandFrame := by
  intro i s t hexec
  obtain ⟨f, e⟩ | ⟨rd, v, w, hdest, e⟩ | ⟨ra, v, w, rfl, -, e⟩ := exec_cases i s <;>
    obtain rfl := Host.Outcome.next.inj (e.symm.trans hexec)
  · simp
  · refine ⟨fun r hr => ?_, by simp⟩
    have hne : rd ≠ r := fun h => hr (h ▸ hdest)
    simp [hne]
  · simp

section
variable {i : Instr} {s t : State}

theorem cfg_of_exec (hexec : exec i s = .next t) : t.cfg = s.cfg :=
  have ⟨_, _, hcfg, _⟩ := commandFrame i s t hexec
  hcfg

/-- A command that halts the block took a fault (rule R135). -/
theorem exec_faulted_of_halted (hrun : s.halted = false) (hexec : exec i s = .next t)
    (hhalted : t.halted = true) : ∃ f, t = s.faulted f := by
  obtain ⟨f, e⟩ | ⟨rd, v, w, -, e⟩ | ⟨ra, v, w, -, -, e⟩ := exec_cases i s <;>
    obtain rfl := Host.Outcome.next.inj (e.symm.trans hexec)
  · exact ⟨f, rfl⟩
  · simp [hrun] at hhalted
  · simp [hrun] at hhalted

end

/-! ## One step, by the host's next event -/

section
variable {s : State} {rest : List HostEvent}

theorem step_of_no_inputs (hin : s.inputs = []) : step s = .next s := by
  simpa [hin] using step_cases s

theorem step_of_reset (hin : s.inputs = .reset :: rest) : step s = .next (s.applyReset rest) := by
  simpa [hin] using step_cases s

theorem step_of_decoded {cmd : CmdWord} {din : Bits} {i : Instr} (hrun : s.halted = false)
    (hidle : s.busy = false) (hin : s.inputs = .command cmd din :: rest) (hd : decode cmd = .ok i) :
    step s = exec i (s.accept cmd din rest) := by
  simpa [hin, hrun, hidle, hd] using step_cases s

end

/-- Settles O50: the step's case without an event. -/
theorem waitsForCommand : Obligations.WaitsForCommand := fun _ => step_of_no_inputs

/-- Settles O49: accepting sets the port, `BUSY` and the host's list. -/
theorem stepRunsDecoded : Obligations.StepRunsDecoded := fun _ _ _ _ _ => step_of_decoded

/-- Settles O48: the reset state's fields, and the wait of a block with nothing presented. -/
theorem resetFromAnywhere : Obligations.ResetFromAnywhere := fun s rest hin =>
  ⟨s.applyReset rest, step_of_reset hin, applyReset_reg s rest, rfl, rfl, rfl, rfl, rfl, rfl, rfl,
    fun hnone => step_of_no_inputs hnone⟩

/-- WHAT A STEP THAT ANSWERS A NEXT STATE DID: it waited, reset, ignored a command, or accepted one, which took
the fault of an illegal word or was executed. -/
theorem step_next_cases {s t : State} (hstep : step s = .next t) :
    t = s ∨
    (∃ rest, t = s.applyReset rest) ∨
    (∃ rest, s.halted = true ∧ t = s.ignore rest) ∨
    ∃ cmd din rest, s.inputs = .command cmd din :: rest ∧
      (t = (s.accept cmd din rest).faulted .illegalCommand ∨
        ∃ i, exec i (s.accept cmd din rest) = .next t) := by
  obtain ⟨-, e⟩ | ⟨rest, -, e⟩ | ⟨cmd, din, rest, hin, ⟨hh, e⟩ | ⟨-, -, e⟩ | ⟨-, -, -, e⟩ | ⟨-, -, i, -, e⟩⟩ :=
      step_cases s <;>
    have ht := hstep.symm.trans e
  · exact .inl (Host.Outcome.next.inj ht)
  · exact .inr (.inl ⟨rest, Host.Outcome.next.inj ht⟩)
  · exact .inr (.inr (.inl ⟨rest, hh, Host.Outcome.next.inj ht⟩))
  · cases ht
  · exact .inr (.inr (.inr ⟨cmd, din, rest, hin, .inl (Host.Outcome.next.inj ht)⟩))
  · exact .inr (.inr (.inr ⟨cmd, din, rest, hin, .inr ⟨i, ht.symm⟩⟩))

/-- Settles O52: only a command could change `MAXLEN`, and it is in every command's frame. -/
theorem capacityConstant : Obligations.CapacityConstant := by
  intro s t hstep
  obtain rfl | ⟨rest, rfl⟩ | ⟨rest, -, rfl⟩ | ⟨cmd, din, rest, -, rfl | ⟨i, hexec⟩⟩ := step_next_cases hstep
  case inr.inr.inr.inr => exact (cfg_of_exec hexec :)
  all_goals rfl

/-! ## Taking a fault -/

/-- A step that halts the block accepted a command, which took a fault. -/
theorem step_faulted_of_halted {s t : State} (hrun : s.halted = false) (hstep : step s = .next t)
    (hhalted : t.halted = true) :
    ∃ cmd din rest f, s.inputs = .command cmd din :: rest ∧ t = (s.accept cmd din rest).faulted f := by
  obtain rfl | ⟨rest, rfl⟩ | ⟨rest, hh, -⟩ | ⟨cmd, din, rest, hin, ht | ⟨i, hexec⟩⟩ := step_next_cases hstep
  · simp [hrun] at hhalted
  · simp at hhalted
  · simp [hrun] at hh
  · exact ⟨cmd, din, rest, .illegalCommand, hin, ht⟩
  · obtain ⟨f, ht⟩ := exec_faulted_of_halted (s := s.accept cmd din rest) hrun hexec hhalted
    exact ⟨cmd, din, rest, f, hin, ht⟩

/-- Settles O43: the accepting changes no register, no `DOUT` and no working state, and neither does the fault
entry. -/
theorem faultIsPrecise : Obligations.FaultIsPrecise := by
  intro s t hrun hstep hhalted
  obtain ⟨cmd, din, rest, f, hin, rfl⟩ := step_faulted_of_halted hrun hstep hhalted
  exact ⟨cmd, din, rest, f, hin, fun _ => rfl, rfl, rfl, rfl, rfl, rfl, rfl, rfl⟩

end Sys2Proof.Machine
end

section
/-! PROOFS. The invariant (rules R6, R13, R24, R130): a command writes a vector that a register may hold when its
operands are such vectors, and the status of every answer is that of the fault taken or as it was. -/

namespace Sys2Proof.Machine

/-! ## The two parts of the invariant -/

/-- Every register and `DOUT` hold what they may (rules R6, R13). -/
def SlotsOk (s : State) : Prop :=
  (∀ r : RegId, slotOk s.cfg (s.reg r) = true) ∧ slotOk s.cfg s.dout = true

/-- `HALTED` says that a fault is recorded, the code is one of rule R130's, and `FINFO` is 0 without one. -/
def StatusOk (s : State) : Prop :=
  (s.halted = true ↔ s.fault ≠ 0) ∧ s.fault.toNat ≤ 4 ∧ (s.fault = 0 → s.finfo = 0)

theorem inv_iff (s : State) : s.Inv ↔ SlotsOk s ∧ s.busy = false ∧ StatusOk s := by
  simp only [State.Inv, SlotsOk, StatusOk, and_assoc]

theorem slotOk_held {c : Config} {v : Bits} :
    slotOk c (.held v) = true ↔ 1 ≤ v.length ∧ fits c v.length = true := by
  simp [slotOk]

theorem faultCode_ne_zero (f : Fault) : faultCode f ≠ 0 := by cases f <;> decide

theorem toNat_faultCode_le (f : Fault) : (faultCode f).toNat ≤ 4 := by cases f <;> decide

theorem statusOk_faulted (s : State) (f : Fault) : StatusOk (s.faulted f) :=
  ⟨iff_of_true rfl (faultCode_ne_zero f), toNat_faultCode_le f, fun h => absurd h (faultCode_ne_zero f)⟩

theorem StatusOk.of_keepsStatus {s t : State} (hs : StatusOk s) (h : KeepsStatus s t) : StatusOk t := by
  obtain ⟨hhalted, hfault, hfinfo, -⟩ := h
  rwa [StatusOk, hhalted, hfault, hfinfo]

/-! ## The slots after a command -/

/-- Every state the answer gives has its slots in order. -/
def AnswersSlotsOk (o : Result) : Prop := ∀ t, o = .next t → SlotsOk t

section
variable {s : State}

theorem answersSlotsOk_next (hs : SlotsOk s) : AnswersSlotsOk (.next s) := by
  rintro _ ⟨⟩
  exact hs

theorem answersSlotsOk_faulted (hs : SlotsOk s) (f : Fault) : AnswersSlotsOk (.next (s.faulted f)) :=
  answersSlotsOk_next hs

theorem answersSlotsOk_writeback (hs : SlotsOk s) (rd : RegId) {v : Bits}
    (hv : slotOk s.cfg (.held v) = true) (w : Working) : AnswersSlotsOk (writeback rd v w s) := by
  obtain ⟨hregs, hdout⟩ := hs
  refine answersSlotsOk_next ⟨fun r => ?_, hdout⟩
  rw [finish_reg, setWork_reg, setReg_reg]
  split
  · exact hv
  · exact hregs r

theorem answersSlotsOk_outputVector (hs : SlotsOk s) {v : Bits} (hv : slotOk s.cfg (.held v) = true)
    (w : Working) : AnswersSlotsOk (outputVector v w s) := by
  obtain ⟨hregs, -⟩ := hs
  exact answersSlotsOk_next ⟨hregs, hv⟩

/-- A command that checks its result's length before it writes. -/
theorem answersSlotsOk_ite_writeback (hs : SlotsOk s) (rd : RegId) {v : Bits} {n : Nat}
    (hlen : v.length = n) (hpos : 1 ≤ n) (w : Working) (f : Fault) :
    AnswersSlotsOk (if fits s.cfg n then writeback rd v w s else takeFault f s) := by
  subst hlen
  split
  case isTrue hfits => exact answersSlotsOk_writeback hs rd (slotOk_held.mpr ⟨hpos, hfits⟩) w
  case isFalse => exact answersSlotsOk_faulted hs f

theorem answersSlotsOk_withSource (hs : SlotsOk s) {r : RegId} {k : Bits → Result}
    (h : ∀ v, slotOk s.cfg (.held v) = true → AnswersSlotsOk (k v)) : AnswersSlotsOk (withSource r s k) := by
  have ⟨hregs, _⟩ := hs
  obtain ⟨-, e⟩ | ⟨v, hv, e⟩ := withSource_cases r s k <;> rw [e]
  · exact answersSlotsOk_faulted hs _
  · exact h v (hv ▸ hregs r)

theorem answersSlotsOk_withSources (hs : SlotsOk s) {ra rb : RegId} {k : Bits → Bits → Result}
    (h : ∀ a b, slotOk s.cfg (.held a) = true → slotOk s.cfg (.held b) = true → AnswersSlotsOk (k a b)) :
    AnswersSlotsOk (withSources ra rb s k) :=
  answersSlotsOk_withSource hs fun a ha => answersSlotsOk_withSource hs fun b => h a b ha

end

section
variable {c : Config} {a b v : Bits}

theorem one_le_width (ha : slotOk c (.held a) = true) : 1 ≤ width a b :=
  (slotOk_held.mp ha).1.trans (le_max_left _ _)

/-- A vector as long as an operand is one a register may hold. -/
theorem slotOk_of_length_eq (ha : slotOk c (.held a) = true) (hlen : v.length = a.length) :
    slotOk c (.held v) = true := by
  rwa [slotOk_held, hlen, ← slotOk_held]

/-- So is one of the working width, the length of the longer operand. -/
theorem slotOk_of_length_eq_width (ha : slotOk c (.held a) = true) (hb : slotOk c (.held b) = true)
    (hlen : v.length = width a b) : slotOk c (.held v) = true := by
  obtain hmax | hmax := max_choice a.length b.length
  · exact slotOk_of_length_eq ha (hlen.trans hmax)
  · exact slotOk_of_length_eq hb (hlen.trans hmax)

theorem slotOk_sub (ha : slotOk c (.held a) = true) (hb : slotOk c (.held b) = true) :
    slotOk c (.held (sub a b)) = true := by
  obtain hlt | hle := Nat.lt_or_ge (val a) (val b)
  · obtain ⟨hpos, hfits⟩ := slotOk_held.mp ha
    rw [sub_of_lt hlt]
    exact slotOk_held.mpr ⟨le_rfl, fits_mono c 1 a.length hpos hfits⟩
  · exact slotOk_of_length_eq_width ha hb (length_sub_of_le hle)

end

/-- A command's result is as long as an operand, one bit long, or of a length the command checks. -/
theorem exec_slotsOk (i : Instr) {s : State} (hs : SlotsOk s) : AnswersSlotsOk (exec i s) := by
  cases i with
  | ldv rd =>
    by_cases hpos : 1 ≤ s.port.din.length
    · have hne : s.port.din.length ≠ 0 := by omega
      simp only [exec, execLdv, if_neg hne]
      exact answersSlotsOk_ite_writeback hs rd rfl hpos _ _
    · rw [exec_ldv_of_badLength (.inl (by omega))]
      exact answersSlotsOk_faulted hs _
  | stv ra => exact answersSlotsOk_withSource hs fun v hv => answersSlotsOk_outputVector hs hv _
  | mov rd ra => exact answersSlotsOk_withSource hs fun v hv => answersSlotsOk_writeback hs rd hv _
  | pad rd n =>
    refine answersSlotsOk_withSource hs fun v hv => ?_
    obtain ⟨hpos, -⟩ := slotOk_held.mp hv
    exact answersSlotsOk_ite_writeback hs rd (by rw [length_pad, Nat.add_comm]) (by omega) _ _
  | neg rd ra =>
    exact answersSlotsOk_withSource hs fun v hv =>
      answersSlotsOk_writeback hs rd (slotOk_of_length_eq hv (length_neg v)) _
  | asr rd ra =>
    exact answersSlotsOk_withSource hs fun p hp =>
      answersSlotsOk_writeback hs rd (slotOk_of_length_eq hp (length_asr p)) _
  | and rd ra rb =>
    exact answersSlotsOk_withSources hs fun a b ha _ =>
      answersSlotsOk_writeback hs rd (slotOk_of_length_eq ha (length_andVec a b)) _
  | or rd ra rb =>
    exact answersSlotsOk_withSources hs fun a b ha _ =>
      answersSlotsOk_writeback hs rd (slotOk_of_length_eq ha (length_orVec a b)) _
  | xor rd ra rb =>
    exact answersSlotsOk_withSources hs fun a b ha _ =>
      answersSlotsOk_writeback hs rd (slotOk_of_length_eq ha (length_xorVec a b)) _
  | add rd ra rb =>
    exact answersSlotsOk_withSources hs fun a b _ _ =>
      answersSlotsOk_ite_writeback hs rd (by rw [length_add, length_ripple]) (Nat.le_add_left _ _) _ _
  | addnc rd ra rb =>
    exact answersSlotsOk_withSources hs fun a b ha hb =>
      answersSlotsOk_writeback hs rd (slotOk_of_length_eq_width ha hb (length_addnc a b)) _
  | sub rd ra rb =>
    exact answersSlotsOk_withSources hs fun a b ha hb => answersSlotsOk_writeback hs rd (slotOk_sub ha hb) _
  | mul rd ra rb =>
    exact answersSlotsOk_withSources hs fun a b _ _ =>
      answersSlotsOk_ite_writeback hs rd (length_mul a b) (Nat.le_add_left _ _) _ _

/-! ## The invariant of a step -/

/-- After a command `BUSY` is 0, whatever it was: the invariant holds when the other parts of it held. -/
theorem inv_of_exec {i : Instr} {s t : State} (hslots : SlotsOk s) (hstatus : StatusOk s)
    (hexec : exec i s = .next t) : t.Inv := by
  refine (inv_iff t).mpr ⟨exec_slotsOk i hslots t hexec, ?_⟩
  cases hcause : faultOf i s with
  | some f =>
    obtain rfl := Host.Outcome.next.inj ((exec_of_faultOf_eq_some hcause).symm.trans hexec)
    exact ⟨rfl, statusOk_faulted s f⟩
  | none =>
    obtain ⟨t', ht', hkeeps⟩ := exec_of_faultOf_eq_none hcause
    obtain rfl := Host.Outcome.next.inj (ht'.symm.trans hexec)
    have ⟨_, _, _, hidle⟩ := hkeeps
    exact ⟨hidle, hstatus.of_keepsStatus hkeeps⟩

theorem inv_reset (c : Config) : State.Inv { State.reset with cfg := c } :=
  ⟨fun r => congrArg (slotOk c) (reset_reg r), rfl, rfl, iff_of_false Bool.false_ne_true (fun h => h rfl),
    Nat.zero_le 4, fun _ => rfl⟩

/-- Settles O53: `inv_reset`. -/
theorem resetMeetsInvariant : Obligations.ResetMeetsInvariant := inv_reset

/-- Settles O54: waiting and ignoring keep every field the invariant reads, reset makes it hold, and an accepted
word takes the fault entry or is a command. -/
theorem stepKeepsInvariant : Obligations.StepKeepsInvariant := by
  intro s t hinv hstep
  obtain ⟨hslots, -, hstatus⟩ := (inv_iff s).mp hinv
  obtain rfl | ⟨rest, rfl⟩ | ⟨rest, -, rfl⟩ | ⟨cmd, din, rest, -, rfl | ⟨i, hexec⟩⟩ := step_next_cases hstep
  · exact hinv
  · exact inv_reset s.cfg
  · exact hinv
  · exact (inv_iff _).mpr ⟨hslots, rfl, statusOk_faulted _ _⟩
  · exact inv_of_exec (s := s.accept cmd din rest) hslots hstatus hexec

/-- Settles O55: only a busy block refuses, and `BUSY` is 0. -/
theorem everyStepCompletes : Obligations.EveryStepCompletes := by
  intro s hinv
  obtain ⟨-, hidle, -⟩ := (inv_iff s).mp hinv
  obtain ⟨-, e⟩ | ⟨rest, -, e⟩ | ⟨cmd, din, rest, -, ⟨-, e⟩ | ⟨-, hbusy, -⟩ | ⟨-, -, -, e⟩ | ⟨-, -, i, -, e⟩⟩ :=
    step_cases s
  case inr.inr.inr.inl => simp [hidle] at hbusy
  case inr.inr.inr.inr.inr => exact e ▸ exec_total i _
  all_goals exact ⟨_, e⟩

end Sys2Proof.Machine
end

section
/-! PROOFS. The working state is unobservable (10_state.md sections 5 and 6): a command reads none of it that it has
not written before, so another working state at its start changes nothing but the working state at its end. -/

namespace Sys2Proof.Machine

/-! ## States and answers equal but for the working state -/

theorem eqButWork_setWork (s : State) (w : Working) : EqButWork s (s.setWork w) := rfl

/-- The other state is the first one with another working state. -/
theorem EqButWork.eq_setWork {s t : State} (h : EqButWork s t) : t = s.setWork t.work := Eq.symm h

theorem answersEqButWork_ite {c : Prop} [Decidable c] {o o' p p' : Result} (ho : AnswersEqButWork o o')
    (hp : AnswersEqButWork p p') : AnswersEqButWork (if c then o else p) (if c then o' else p') := by
  split
  · exact ho
  · exact hp

section
variable {s : State} {w : Working}

theorem answersEqButWork_takeFault (f : Fault) :
    AnswersEqButWork (takeFault f s) (takeFault f (s.setWork w)) := eqButWork_setWork (s.faulted f) w

theorem answersEqButWork_writeback (rd : RegId) (v : Bits) (u u' : Working) :
    AnswersEqButWork (writeback rd v u s) (writeback rd v u' (s.setWork w)) :=
  eqButWork_setWork ((s.setReg rd v).setWork u).finish u'

theorem answersEqButWork_outputVector (v : Bits) (u u' : Working) :
    AnswersEqButWork (outputVector v u s) (outputVector v u' (s.setWork w)) :=
  eqButWork_setWork ((s.setDout v).setWork u).finish u'

/-- A command that checks its result's length before it writes. -/
theorem answersEqButWork_ite_writeback (c : Prop) [Decidable c] (f : Fault) (rd : RegId) (v : Bits)
    (u u' : Working) :
    AnswersEqButWork (if c then writeback rd v u s else takeFault f s)
      (if c then writeback rd v u' (s.setWork w) else takeFault f (s.setWork w)) :=
  answersEqButWork_ite (answersEqButWork_writeback rd v u u') (answersEqButWork_takeFault f)

theorem answersEqButWork_withSource {r : RegId} {k k' : Bits → Result}
    (h : ∀ v, AnswersEqButWork (k v) (k' v)) :
    AnswersEqButWork (withSource r s k) (withSource r (s.setWork w) k') := by
  unfold withSource
  rw [setWork_reg]
  cases s.reg r with
  | unwritten => exact answersEqButWork_takeFault _
  | held v => exact h v

theorem answersEqButWork_withSources {ra rb : RegId} {k k' : Bits → Bits → Result}
    (h : ∀ a b, AnswersEqButWork (k a b) (k' a b)) :
    AnswersEqButWork (withSources ra rb s k) (withSources ra rb (s.setWork w) k') :=
  answersEqButWork_withSource fun a => answersEqButWork_withSource (h a)

end

/-! ## Commands and steps -/

/-- A command's result and its faults depend on the registers, `MAXLEN` and the port alone; `MUL` writes the Booth
registers before it reads them. -/
theorem exec_setWork (i : Instr) (s : State) (w : Working) :
    AnswersEqButWork (exec i s) (exec i (s.setWork w)) := by
  cases i with
  | ldv rd =>
    exact answersEqButWork_ite (answersEqButWork_takeFault _) (answersEqButWork_ite_writeback _ _ rd _ _ _)
  | stv ra => exact answersEqButWork_withSource fun v => answersEqButWork_outputVector v _ _
  | mov rd ra | neg rd ra | asr rd ra =>
    exact answersEqButWork_withSource fun _ => answersEqButWork_writeback rd _ _ _
  | pad rd n => exact answersEqButWork_withSource fun _ => answersEqButWork_ite_writeback _ _ rd _ _ _
  | add rd ra rb | mul rd ra rb =>
    exact answersEqButWork_withSources fun _ _ => answersEqButWork_ite_writeback _ _ rd _ _ _
  | and rd ra rb | or rd ra rb | xor rd ra rb | addnc rd ra rb | sub rd ra rb =>
    exact answersEqButWork_withSources fun _ _ => answersEqButWork_writeback rd _ _ _

theorem issue_setWork (cmd : CmdWord) (s : State) (w : Working) :
    AnswersEqButWork (issue cmd s).answer (issue cmd (s.setWork w)).answer := by
  unfold issue
  cases decode cmd with
  | error _ => exact answersEqButWork_takeFault _
  | ok i => exact exec_setWork i s w

theorem present_setWork (cmd : CmdWord) (din : Bits) (rest : List HostEvent) (s : State) (w : Working) :
    AnswersEqButWork (present cmd din rest s).answer (present cmd din rest (s.setWork w)).answer := by
  unfold present
  rw [setWork_halted, setWork_busy]
  cases s.halted with
  | true => exact eqButWork_setWork (s.ignore rest) w
  | false =>
    cases s.busy with
    | true => rfl
    | false => exact issue_setWork cmd (s.accept cmd din rest) w

theorem step_setWork (s : State) (w : Working) : AnswersEqButWork (step s) (step (s.setWork w)) := by
  rw [step_eq_answer, step_eq_answer]
  unfold fetch
  rw [setWork_inputs]
  cases s.inputs with
  | nil => exact eqButWork_setWork s w
  | cons e rest =>
    cases e with
    | reset => exact eqButWork_setWork (s.applyReset rest) Working.cleared
    | command cmd din => exact present_setWork cmd din rest s w

/-- Settles O56: the second state is the first with another working state, of which a step keeps the rest. -/
theorem workingStateUnobservable : Obligations.WorkingStateUnobservable := by
  intro s t h
  rw [h.eq_setWork]
  exact ⟨step_setWork s t.work, rfl⟩

end Sys2Proof.Machine
end

section
/-! PROOFS. Alignment (rule R71), and index 0 of the results of the seven units (rule R156), read as the bit of the
highest weight. -/

namespace Sys2Proof.Machine

/-! ## Alignment -/

section
variable {a b : Bits}

theorem equalize_left_of_le (h : b.length ≤ a.length) : (equalize a b).1 = a := by
  have hzero : width a b - a.length = 0 := by rw [width, max_eq_left h, Nat.sub_self]
  rw [equalize, hzero, pad_zero]

theorem equalize_right_of_le (h : a.length ≤ b.length) : (equalize a b).2.1 = b := by
  rw [equalize_swap b a, equalize_left_of_le h]

/-- The bit of weight `2^k`, by its index. -/
theorem getElem?_eq_lsb {v : Bits} {n k : Nat} (hlen : v.length = n) (hk : k < n) :
    v[n - 1 - k]? = some (lsb v k) := by
  subst hlen
  rw [lsb_eq_bitAt v k hk, getElem?_eq_bitAt (by omega)]

end

/-- Settles O12: padding keeps every bit by weight, and the padded operands have one length. -/
theorem equalizeAligns : Obligations.EqualizeAligns := by
  intro a b
  refine ⟨rfl, length_equalize_left a b, length_equalize_right a b, equalize_left_of_le,
    equalize_right_of_le, val_equalize_left a b, val_equalize_right a b, fun k hk => ?_⟩
  have hleft := getElem?_eq_lsb (length_equalize_left a b) hk
  have hright := getElem?_eq_lsb (length_equalize_right a b) hk
  rw [lsb_equalize_left] at hleft
  rw [lsb_equalize_right] at hright
  exact ⟨hleft, hright⟩

/-! ## Index 0 -/

theorem bitAt_asr_zero (v : Bits) : bitAt (asr v) 0 = bitAt v 0 := by
  rw [bitAt, bitAt, List.getD, List.getD, getElem?_asr_zero]

theorem bitAt_pad_zero_eq (v : Bits) (n : Nat) : bitAt (pad v n) 0 = (decide (n = 0) && bitAt v 0) := by
  cases n with
  | zero => rfl
  | succ n => exact bitAt_pad_zero v (Nat.le_add_left 1 n)

theorem bitAt_zero_eq_lsb {v : Bits} {n : Nat} (hlen : v.length = n) (hpos : 1 ≤ n) :
    bitAt v 0 = lsb v (n - 1) := by
  subst hlen
  rw [lsb_eq_bitAt v _ (by omega), Nat.sub_self]

section
variable {a b : Bits}

/-- The bit of `b` that meets index 0 of `a`; 0 beyond a shorter `b`. -/
theorem lsb_at_lead (ha : 1 ≤ a.length) :
    lsb b (a.length - 1) = if b.length < a.length then false else bitAt b (b.length - a.length) := by
  split
  case isTrue h => exact lsb_of_le b _ (by omega)
  case isFalse h =>
    rw [lsb_eq_bitAt b _ (by omega)]
    congr 1
    omega

theorem bitAt_andVec_zero (ha : 1 ≤ a.length) :
    bitAt (andVec a b) 0 =
      if b.length < a.length then false else (bitAt a 0 && bitAt b (b.length - a.length)) := by
  rw [bitAt_zero_eq_lsb (length_andVec a b) ha, lsb_andVec, ← bitAt_zero_eq_lsb rfl ha, lsb_at_lead ha]
  split
  · rw [Bool.and_false]
  · rfl

theorem bitAt_orVec_zero (ha : 1 ≤ a.length) :
    bitAt (orVec a b) 0 =
      if b.length < a.length then bitAt a 0 else (bitAt a 0 || bitAt b (b.length - a.length)) := by
  rw [bitAt_zero_eq_lsb (length_orVec a b) ha, lsb_orVec a b (by omega), ← bitAt_zero_eq_lsb rfl ha,
    lsb_at_lead ha]
  split
  · rw [Bool.or_false]
  · rfl

theorem bitAt_xorVec_zero (ha : 1 ≤ a.length) :
    bitAt (xorVec a b) 0 =
      if b.length < a.length then bitAt a 0 else xor (bitAt a 0) (bitAt b (b.length - a.length)) := by
  rw [bitAt_zero_eq_lsb (length_xorVec a b) ha, lsb_xorVec a b (by omega), ← bitAt_zero_eq_lsb rfl ha,
    lsb_at_lead ha]
  split
  · rw [Bool.xor_false]
  · rfl

/-- Two operands below half of `2^W` do not carry out. -/
theorem bitAt_add_zero_of_lead_false (ha : bitAt (equalize a b).1 0 = false)
    (hb : bitAt (equalize a b).2.1 0 = false) : bitAt (add a b) 0 = false := by
  rw [bitAt_zero_eq_decide, decide_eq_false_iff_not, length_equalize_left, val_equalize_left] at ha
  rw [bitAt_zero_eq_decide, decide_eq_false_iff_not, length_equalize_right, val_equalize_right] at hb
  rw [bitAt_add_zero, decide_eq_false_iff_not]
  omega

theorem bitAt_sub_zero_of_lead_false (ha : bitAt (equalize a b).1 0 = false) :
    bitAt (sub a b) 0 = false := by
  obtain hlt | hle := Nat.lt_or_ge (val a) (val b)
  · rw [sub_of_lt hlt, bitAt_zero_cons]
  · exact bitAt_sub_zero hle ha

theorem bitAt_mul_zero (a b : Bits) : bitAt (mul a b) 0 = false := by
  rw [mul_eq_false_cons, bitAt_zero_cons]

theorem bitAt_neg_zero_iff {v : Bits} (hlead : bitAt v 0 = false) : bitAt (neg v) 0 = true ↔ val v ≠ 0 := by
  refine ⟨fun hneg hzero => ?_, fun hne => bitAt_neg_zero_of_pos hlead (Nat.pos_of_ne_zero hne)⟩
  rw [neg_eq_self_of_val_eq_zero hzero, hlead] at hneg
  cases hneg

end

/-- Settles O58: each row is the lemma of that unit; the operands that lose the zero are evaluated. -/
theorem leadingZeroTable : Obligations.LeadingZeroTable := by
  refine ⟨fun v _ => bitAt_asr_zero v, bitAt_pad_zero_eq, fun a b ha _ => ?_, fun _ _ => bitAt_neg_zero_iff,
    by decide, by decide, by decide⟩
  have hsum : bitAt (addnc a b) 0 = lsb (ripple a b).1 (width a b - 1) :=
    bitAt_zero_eq_lsb (length_ripple a b) (ha.trans (le_max_left _ _))
  exact ⟨bitAt_andVec_zero ha, bitAt_orVec_zero ha, bitAt_xorVec_zero ha, rfl, bitAt_add_zero_of_lead_false,
    hsum, bitAt_sub_zero_of_lead_false, bitAt_mul_zero a b⟩

end Sys2Proof.Machine
end

section
/-! PROOFS. The Booth cycles (rules R110, R111, R119), the pattern of every product (rule R115), and `PAD` before a
`MUL` (rule R157). -/

namespace Sys2Proof.Machine

/-! ## One cycle -/

section
variable {t : Working}

theorem regP_boothCycle_of_hold (h : boothSelected t = .hold) : (boothCycle t).regP = asr t.regP := by
  simp [boothCycle, boothAct, h]

theorem regP_boothCycle_of_addA (h : boothSelected t = .addA) :
    (boothCycle t).regP = asr (addnc t.regP t.regA) := by
  simp [boothCycle, boothAct, h]

theorem regP_boothCycle_of_addS (h : boothSelected t = .addS) :
    (boothCycle t).regP = asr (addnc t.regP t.regS) := by
  simp [boothCycle, boothAct, h]

theorem boothSelected_of_bits {s2 l : Bool} (hs2 : bitAt t.regP (2 * t.n - 1) = s2)
    (hl : bitAt t.regP (2 * t.n) = l) : boothSelected t = boothSelect s2 l := by
  rw [boothSelected, hs2, hl]

end

/-! ## The cycles of a multiplication -/

theorem cyc_boothRun (k : Nat) (t : Working) : (boothRun k t).cyc = t.cyc + k := by
  induction k with
  | zero => rfl
  | succ k ih =>
    obtain ⟨-, -, -, -, -, hcyc⟩ := boothCycle_fixed (boothRun k t)
    rw [boothRun_succ, hcyc, ih, Nat.add_assoc]

theorem n_boothInit (w : Working) : (boothInit w).n = width w.latchX w.latchY := rfl

theorem n_multiply (w : Working) : (multiply w).n = width w.latchX w.latchY :=
  (boothAt_multiply rfl).n_eq.trans (length_equalize_left _ _)

theorem cyc_multiply (w : Working) : (multiply w).cyc = width w.latchX w.latchY := by
  rw [multiply, cyc_boothRun, n_boothInit]
  exact Nat.zero_add _

/-- The cycle `k` adds when the multiplier bit of weight `2^k` differs from the one below, 0 below the lowest
(rule R119). -/
def AddsAt (y : Bits) (k : Nat) : Bool := lsb y k != (if 1 ≤ k then lsb y (k - 1) else false)

/-- The last cycle of a run counts by itself. -/
theorem boothAdditions_succ (k : Nat) (t : Working) :
    boothAdditions (k + 1) t =
      boothAdditions k t + (if boothSelected (boothRun k t) = .hold then 0 else 1) := by
  induction k generalizing t with
  | zero => exact Nat.add_comm _ _
  | succ k ih =>
    rw [boothAdditions, ih (boothCycle t), boothAdditions, boothRun, Nat.add_assoc]

/-- The last consumed bit, by its weight. -/
theorem bitAt_drop_zero_eq_lsb {y : Bits} {n k : Nat} (hlen : y.length = n) (hk : k ≤ n) :
    bitAt (y.drop (n - k)) 0 = if 1 ≤ k then lsb y (k - 1) else false := by
  have hdrop : bitAt (y.drop (n - k)) 0 = bitAt y (n - k) := by
    rw [bitAt, bitAt, List.getD, List.getD, List.getElem?_drop, Nat.add_zero]
  rw [hdrop]
  subst hlen
  split
  case isTrue hpos =>
    rw [lsb_eq_bitAt y _ (by omega)]
    congr 1
    omega
  case isFalse hzero =>
    have hend : y.length ≤ y.length - k := by omega
    rw [bitAt, List.getD, List.getElem?_eq_none hend]
    rfl

/-- Before cycle `k` the low bits of `P` are the multiplier bits of weight `2^k` and `2^(k-1)`. -/
theorem boothSelected_boothRun {w : Working} {x y : Bits} {n k : Nat}
    (he : equalize w.latchX w.latchY = (x, y, n)) (hk : k < n) :
    boothSelected (boothRun k (boothInit w)) =
      boothSelect (lsb y k) (if 1 ≤ k then lsb y (k - 1) else false) := by
  obtain ⟨-, hy⟩ := length_of_equalize_eq he
  have hat := boothAt_boothRun_of_le he hk.le
  have hsplit : y.take (n - k) = y.take (n - 1 - k) ++ [lsb y k] := by
    have hsucc : n - k = n - 1 - k + 1 := by omega
    rw [hsucc, List.take_add_one, getElem?_eq_lsb hy hk, Option.toList_some]
  rw [hsplit] at hat
  rw [hat.selected_eq, bitAt_drop_zero_eq_lsb hy hk.le]

theorem boothAdditions_boothInit {w : Working} {x y : Bits} {n k : Nat}
    (he : equalize w.latchX w.latchY = (x, y, n)) (hk : k ≤ n) :
    boothAdditions k (boothInit w) = ((List.range k).filter (AddsAt y)).length := by
  induction k with
  | zero => rfl
  | succ k ih =>
    have hhold : boothSelected (boothRun k (boothInit w)) = .hold ↔ AddsAt y k = false := by
      rw [boothSelected_boothRun he hk, boothSelect_eq_hold, AddsAt, bne_eq_false_iff_eq]
    rw [boothAdditions_succ, ih (Nat.le_of_succ_le hk), List.range_succ, List.filter_append,
      List.length_append]
    cases hadd : AddsAt y k <;> simp [hhold, hadd]

/-- Settles O27: the three selections of the control, and the cycles of a run counted one by one. -/
theorem boothCounts : Obligations.BoothCounts := by
  refine ⟨fun t => ⟨fun heq => ?_, fun hs2 hl => ?_, fun hs2 hl => ?_⟩, fun w =>
    ⟨n_multiply w, cyc_multiply w, boothAdditions_boothInit rfl le_rfl⟩⟩
  · have hsel : boothSelected t = .hold := (boothSelect_eq_hold _ _).mpr heq
    exact ⟨hsel, regP_boothCycle_of_hold hsel⟩
  · have hsel : boothSelected t = .addA := boothSelected_of_bits hs2 hl
    exact ⟨hsel, regP_boothCycle_of_addA hsel⟩
  · have hsel : boothSelected t = .addS := boothSelected_of_bits hs2 hl
    exact ⟨hsel, regP_boothCycle_of_addS hsel⟩

/-! ## The pattern outside `MulPre` -/

/-- The multiplicand is read as signed, but for the most negative pattern. -/
theorem boothMultiplicand_eq_ite {x : Bits} {n : Nat} (hlen : x.length = n) (hpos : 1 ≤ n) :
    boothMultiplicand x = if x = true :: zeros (n - 1) then 2 ^ (n - 1) else sval x := by
  subst hlen
  have hcast : ((2 ^ x.length : Nat) : Int) = 2 ^ x.length := mod_cast rfl
  rw [boothMultiplicand]
  by_cases hmost : x = true :: zeros (x.length - 1)
  · have htwice := (two_mul_val_eq_iff x).mpr hmost
    have hval : val x = 2 ^ (x.length - 1) := by
      rw [← Nat.sub_add_cancel hpos, pow_succ, Nat.mul_comm] at htwice
      exact Nat.eq_of_mul_eq_mul_right two_pos htwice
    rw [if_pos hmost, if_pos (by omega), hval]
    exact mod_cast rfl
  · have hhalf := mt (two_mul_val_eq_iff x).mp hmost
    rw [if_neg hmost, sval_eq_ite]
    split <;> split <;> omega

/-- Settles O24: the value of every product, with the multiplicand spelled as the statement reads it. -/
theorem signedProductPattern : Obligations.SignedProductPattern := by
  intro m r hm _ n m' sm
  have hsm : boothMultiplicand m' = sm :=
    boothMultiplicand_eq_ite (length_equalize_left m r) (hm.trans (le_max_left _ _))
  rw [val_mul, ← hsm]
  rfl

/-! ## `PAD` before `MUL` -/

theorem mulPre_pad_one (a b : Bits) : mulPre (pad a 1) (pad b 1) = true :=
  (mulPre_iff _ _).mpr ⟨fun _ => bitAt_pad_zero a le_rfl, fun _ => bitAt_pad_zero b le_rfl⟩

/-- Settles O59: the padded operands meet `MulPre` and keep their values. -/
theorem padRepairsProduct : Obligations.PadRepairsProduct := by
  intro a b
  rw [val_mul_of_mulPre (mulPre_pad_one a b), val_pad, val_pad]

end Sys2Proof.Machine
end

section
/-! PROOFS. The seven binary commands at once (rules R44, R160): each completes with one function of its operand
values, on a condition that does not look at the destination. -/

namespace Sys2Proof.Machine

/-! ## The result and the condition -/

/-- The vector function of a binary command. -/
def BinaryOp.vec : BinaryOp → Bits → Bits → Bits
  | .and => andVec
  | .or => orVec
  | .xor => xorVec
  | .add => Machine.add
  | .addnc => Machine.addnc
  | .sub => Machine.sub
  | .mul => Machine.mul

/-- The length check of the two that lengthen (rule R133). -/
def BinaryOp.resultFits (c : Config) (a b : Bits) : BinaryOp → Bool
  | .add => fits c (width a b + 1)
  | .mul => fits c (2 * width a b + 1)
  | .and | .or | .xor | .addnc | .sub => true

section
variable {op : BinaryOp} {rd ra rb : RegId} {s : State} {a b v : Bits}

theorem exec_mul_of_fits (ha : s.reg ra = .held a) (hb : s.reg rb = .held b)
    (hfits : fits s.cfg (2 * width a b + 1) = true) :
    exec (.mul rd ra rb) s = writeback rd (mul a b) (multiply (s.work.latch a b)) s := by
  simp [exec, execMul, withSources_held ra rb s _ a b ha hb, hfits, boothResult_multiply]

theorem exec_mul_of_overflow (ha : s.reg ra = .held a) (hb : s.reg rb = .held b)
    (hlong : fits s.cfg (2 * width a b + 1) = false) :
    exec (.mul rd ra rb) s = .next (s.faulted .lengthOverflow) := by
  simp [exec, execMul, withSources_held ra rb s _ a b ha hb, hlong, takeFault]

/-! ## Completion -/

theorem completesWith_command (ha : s.reg ra = .held a) (hb : s.reg rb = .held b)
    (hfits : op.resultFits s.cfg a b = true) :
    CompletesWith (op.command rd ra rb) s rd (op.vec a b) := by
  cases op with
  | and => exact completesWith_of_writeback (exec_and_held ha hb)
  | or => exact completesWith_of_writeback (exec_or_held ha hb)
  | xor => exact completesWith_of_writeback (exec_xor_held ha hb)
  | add => exact completesWith_of_writeback (exec_add_of_fits ha hb hfits)
  | addnc => exact completesWith_of_writeback (exec_addnc_held ha hb)
  | sub => exact completesWith_of_writeback (exec_sub_held ha hb)
  | mul => exact completesWith_of_writeback (exec_mul_of_fits ha hb hfits)

theorem exec_command_of_unwritten (h : s.reg ra = .unwritten ∨ s.reg rb = .unwritten) :
    exec (op.command rd ra rb) s = .next (s.faulted .unwrittenRegister) := by
  cases op <;> exact withSources_unwritten ra rb s _ h

theorem exec_command_of_overflow (ha : s.reg ra = .held a) (hb : s.reg rb = .held b)
    (hlong : op.resultFits s.cfg a b = false) :
    exec (op.command rd ra rb) s = .next (s.faulted .lengthOverflow) := by
  cases op with
  | add => exact exec_add_of_overflow ha hb hlong
  | mul => exact exec_mul_of_overflow ha hb hlong
  | and | or | xor | addnc | sub => cases hlong

/-- A block that runs does not complete by halting. -/
theorem not_completesWith_of_faulted {i : Instr} {f : Fault} (hrun : s.halted = false)
    (h : exec i s = .next (s.faulted f)) : ¬ CompletesWith i s rd v := by
  rintro ⟨w, hdone⟩
  have hhalted := congrArg State.halted (Host.Outcome.next.inj (h.symm.trans hdone))
  simp [hrun] at hhalted

/-- A command completes with one vector. -/
theorem CompletesWith.unique {i : Instr} {u : Bits} (h : CompletesWith i s rd v)
    (h' : CompletesWith i s rd u) : v = u := by
  obtain ⟨w, e⟩ := h
  obtain ⟨w', e'⟩ := h'
  have hreg := congrArg (State.reg · rd) (Host.Outcome.next.inj (e.symm.trans e'))
  simpa [State.reg] using hreg

/-- WHEN A BINARY COMMAND COMPLETES, AND WITH WHAT: the destination is no part of it. -/
theorem completesWith_command_iff (hrun : s.halted = false) :
    CompletesWith (op.command rd ra rb) s rd v ↔
      ∃ a b, s.reg ra = .held a ∧ s.reg rb = .held b ∧ op.resultFits s.cfg a b = true ∧ v = op.vec a b := by
  constructor
  · intro h
    cases ha : s.reg ra with
    | unwritten => exact absurd h (not_completesWith_of_faulted hrun (exec_command_of_unwritten (.inl ha)))
    | held a =>
      cases hb : s.reg rb with
      | unwritten => exact absurd h (not_completesWith_of_faulted hrun (exec_command_of_unwritten (.inr hb)))
      | held b =>
        cases hfits : op.resultFits s.cfg a b with
        | false =>
          exact absurd h (not_completesWith_of_faulted hrun (exec_command_of_overflow ha hb hfits))
        | true => exact ⟨a, b, rfl, rfl, hfits, h.unique (completesWith_command ha hb hfits)⟩
  · rintro ⟨a, b, ha, hb, hfits, rfl⟩
    exact completesWith_command ha hb hfits

end

/-- Settles O39: the condition and the vector are the same for every destination. -/
theorem inPlaceMatchesPure : Obligations.InPlaceMatchesPure := by
  intro op rd rd' ra rb s v hrun h
  rw [completesWith_command_iff hrun] at h ⊢
  exact h

/-- Settles O40: the identities on equal operands (rule R80), and the subtraction of equal values (rule R103). -/
theorem aliasedOperands : Obligations.AliasedOperands := by
  intro r s v h
  obtain ⟨hand, hor, hxor, -⟩ := bitwiseIdentities v
  have hsub : sub v v = zeros v.length := by rw [sub_of_val_eq rfl, width, Nat.max_self]
  have hdone (op : BinaryOp) (hfits : op.resultFits s.cfg v v = true) :
      CompletesWith (op.command r r r) s r (op.vec v v) := completesWith_command h h hfits
  exact ⟨hxor ▸ hdone .xor rfl, hand ▸ hdone .and rfl, hor ▸ hdone .or rfl, hsub ▸ hdone .sub rfl⟩

/-- Settles O37: the outcomes of reading the sources and of the length check; the completed result is `mul a b`. -/
theorem mulResult : Obligations.MulResult := by
  intro rd ra rb s
  refine ⟨fun h => faults_of_faulted (withSources_unwritten ra rb s _ h), fun a b ha hb =>
    ⟨fun hlong => faults_of_faulted (exec_mul_of_overflow ha hb hlong), fun hfits => ?_⟩⟩
  exact ⟨mul a b, completesWith_of_writeback (exec_mul_of_fits ha hb hfits), rfl, length_mul a b,
    bitAt_mul_zero a b, val_mul_of_mulPre⟩

/-! ## Lengths -/

/-- Only a floored subtraction is shorter than its left operand. -/
theorem eq_sub_of_length_vec_lt {op : BinaryOp} {a b : Bits} (h : (op.vec a b).length < a.length) :
    op = .sub ∧ val a < val b ∧ op.vec a b = [false] := by
  have hwidth : a.length ≤ width a b := le_max_left _ _
  cases op with
  | sub =>
    obtain hlt | hle := Nat.lt_or_ge (val a) (val b)
    · exact ⟨rfl, hlt, sub_of_lt hlt⟩
    · exact absurd h (hwidth.trans_eq (length_sub_of_le hle).symm).not_gt
  | and | or | xor => simp [BinaryOp.vec] at h
  | add | addnc | mul =>
    simp only [BinaryOp.vec, length_add, length_addnc, length_mul] at h
    omega

/-- Settles O60: the result is the command's vector function of its operands, whose length is known. -/
theorem lengthsOnlyGrow : Obligations.LengthsOnlyGrow := by
  intro op rd ra rb s a b r hrun ha hb hdone
  obtain ⟨a', b', ha', hb', -, rfl⟩ := (completesWith_command_iff hrun).mp hdone
  obtain rfl := Slot.held.inj (ha'.symm.trans ha)
  obtain rfl := Slot.held.inj (hb'.symm.trans hb)
  refine ⟨eq_sub_of_length_vec_lt, ?_, ?_⟩
  · rintro rfl
    exact length_add a' b'
  · rintro rfl
    exact (Nat.lt_succ_self _).trans_eq (length_mul a' b').symm

end Sys2Proof.Machine
end
